-- ==== Sys2Proof/Word.lean ====
section
/-! DEFINITION. The word types of the block: bytes of the wire and 16-bit values (00_scope.md R11, R12). -/

namespace Sys2Proof

/-- A byte: every frame field, every buffer cell (R11). -/
abbrev Byte := BitVec 8

/-- A 16-bit telemetry or sensor value (R11). -/
abbrev Word := BitVec 16

end Sys2Proof
end

