-- ==== Sys2Proof/Config.lean ====
section
/-! DEFINITION. What the platform fixes and what the environment supplies: the parameters of 00_scope.md R10, the
input pins and draws of 10_state.md R56 to R63, and the opaque constants that stand for every value left open. -/

namespace Sys2Proof

/-- The dialect the receiver runs, the strap `VARIANT` (R10, R51). -/
inductive Variant where
  | runtime
  | boot
deriving DecidableEq, Repr, Inhabited

/-- The register code of a variant (R51). -/
def Variant.code : Variant → BitVec 1
  | .runtime => 0
  | .boot => 1

/-- Three device-signature bytes, in order (R349). -/
structure Signature where
  b0 : Byte
  b1 : Byte
  b2 : Byte
deriving DecidableEq, Repr, Inhabited

/-- The parameters the source leaves open (00_scope.md R10). No step changes them. -/
structure Params where
  /-- `DEFAULT_ID`, the identity when the NVM marker is clear. -/
  defaultId : BitVec 7
  /-- `ID_NVM_ADDR`, NVM address of the identity byte; the configuration byte is the next one. -/
  idNvmAddr : Nat
  /-- `NVM_INIT`, identity byte at first power-up. -/
  nvmInitId : Byte
  /-- `NVM_INIT`, configuration byte at first power-up. -/
  nvmInitCfg : Byte
  /-- `WDT_LIMIT`, the inactivity bound in service steps. -/
  wdtLimit : BitVec 16
  /-- `RX_BUF_CAP`, bytes of `RXBUF`. -/
  rxBufCap : Nat
  /-- `TX_BUF_CAP`, bytes of `TXBUF`, sync bytes counted, checksum not. -/
  txBufCap : Nat
  /-- `T_PRE`, ticks between asserting drive and the first byte. -/
  tPre : BitVec 16
  /-- `T_POST`, ticks between transmit complete and releasing drive. -/
  tPost : BitVec 16
  /-- `T_TRAIL`, ticks after releasing drive before the controller is idle. -/
  tTrail : BitVec 16
  /-- `T_BIT`, one bit time in ticks. -/
  tBit : Nat
  /-- `T_PROP`, the line propagation delay in ticks. -/
  tProp : Nat
  /-- `PAGE_SIZE`, bytes of a flash page. -/
  pageSize : Nat
  /-- `APP_LIMIT`, first flash byte the boot variant may not write. -/
  appLimit : Nat
  /-- `FLASH_ADDR_W`, width of the page cursor. -/
  flashAddrW : Nat
  /-- `SIG_EXPECTED`, the expected device signature. -/
  sigExpected : Signature
  /-- `T_RESET`, ticks of the deferred-reset watchdog. -/
  tReset : Nat
deriving DecidableEq, Repr, Inhabited

/-- The constraints column of R10 (`T_*` and `WDT_LIMIT` fit 16 bits by their type, R396; `DEFAULT_ID` is 0..127 by
its type). `RX_BUF_CAP` has the bound of the variant `v` alone (log 6). -/
abbrev Params.Legal (p : Params) (v : Variant) : Prop :=
  p.wdtLimit ≠ 0 ∧ 2 ≤ p.rxBufCap ∧ (v = .boot → p.pageSize + 4 ≤ p.rxBufCap) ∧ 14 ≤ p.txBufCap ∧
  p.tProp + p.tBit ≤ p.tPre.toNat ∧ p.tBit ≤ p.tPost.toNat ∧ p.tProp ≤ p.tTrail.toNat ∧
  1 ≤ p.pageSize ∧ p.pageSize ≤ 253 ∧ p.appLimit % p.pageSize = 0 ∧ p.appLimit ≤ 2 ^ p.flashAddrW ∧ 1 ≤ p.tReset

/-- One legal choice of parameters, that of 95_test_vectors.md section 0 (with the remaining ones at small legal
values). `Config.params` falls back to it when the opaque choice is not legal, so that it is always legal. -/
def Params.example : Params where
  defaultId := 1
  idNvmAddr := 0
  nvmInitId := 0x97
  nvmInitCfg := 0x00
  wdtLimit := 3
  rxBufCap := 16
  txBufCap := 16
  tPre := 0
  tPost := 0
  tTrail := 0
  tBit := 0
  tProp := 0
  pageSize := 4
  appLimit := 64
  flashAddrW := 8
  sigExpected := ⟨0x1E, 0x93, 0x0B⟩
  tReset := 1

/-- The levels of the input pins and the values the collaborators would return in one step; all of them free
(R58, R61, R63; 93_implementation_defined.md I5 to I7, I25). -/
structure Ports where
  /-- `Telemetry()`: position, current, velocity, supply voltage, temperature (R61). -/
  pos : Word
  cur : Word
  vel : Word
  vsup : Word
  temp : Word
  /-- `Sensor.get_values()`: x, y, z (R61). -/
  sensorX : Word
  sensorY : Word
  sensorZ : Word
  /-- `sig_in`, the device signature (R63, R349). -/
  sigIn : Signature
  /-- A failing identity store: `some b` when a byte written in this step is kept as `b` (R92, I25). -/
  nvmFault : Option Byte
  /-- `tx_ready`: the UART accepts a byte this tick (R58). -/
  txReady : Bool
  /-- `tx_complete`: every written byte is out on the line (R58). -/
  txComplete : Bool
  /-- The `VARIANT` strap, sampled at reset (R51). -/
  strap : Variant
  /-- The receive interface's contents after a reset in this step (R434). -/
  rxAfterReset : List Byte
deriving DecidableEq, Repr, Inhabited

/-- Which agent moves in a step (R30, R57). -/
inductive Event where
  /-- A service strobe: one receiver step (R160). -/
  | svc
  /-- A timebase tick: one turnaround step (R300). -/
  | tb
  /-- Service strobes while a whole frame waits at the receive interface: the frame is executed (R2, R189). -/
  | burst
  /-- The bus puts a byte on the line (R56). -/
  | bus (b : Byte)
  /-- A reset (R430). `torn` is `some page` when it cuts into a page write: the page then holds `page` (R435). -/
  | reset (torn : Option (List Byte))
deriving DecidableEq, Repr, Inhabited

/-- The inputs of one step: the pins and draws, and the agent that moves. -/
structure Input where
  ports : Ports
  event : Event
deriving DecidableEq, Repr, Inhabited

/-- The platform's choice of parameters, open (R10, I15). -/
opaque Config.chosenParams : Params

/-- The pins at power-up, the `VARIANT` strap among them, open (R10, I15). -/
opaque Config.portsAtReset : Ports

/-- The parameters of the machine: the platform's choice, which R10 requires to be legal. DESIGN CHOICE (log 6): R10 and
R343 leave open which variant's `RX_BUF_CAP` bound a device meets when a later reset changes its strap, and the model
asks only for that of the strap at power-up. A runtime device reset into the boot variant may so have
`RX_BUF_CAP < PAGE_SIZE + 4`, and a full `W` is then `LEN_RANGE`. -/
def Config.params : Params :=
  if Config.chosenParams.Legal Config.portsAtReset.strap then Config.chosenParams else Params.example

/-- What the environment does in step number `n` when State holds no input for it: any input (R57). A free value. -/
opaque Config.environment : Nat → Input

/-- What reading a buffer byte that nothing has written since reset gives, by the step number and the index (I8).
A free value. -/
opaque Config.unwrittenByte : Nat → Nat → Byte

end Sys2Proof
end

