-- ==== Sys2Proof/Syntax.lean ====
section
/-! DEFINITION. The instructions of the block: one constructor per row of spec/opcode_table.json.
A frame is an instruction (00_scope.md R2); its operands are the bytes after the opcode, the checksum byte among them. -/

namespace Sys2Proof

/-- One frame on the wire. `addr` is the address byte at offset 3, `chk` the trailing checksum byte
(30_encoding.md R121 to R124). The length byte of a self-describing frame is the length of its payload (R123). -/
inductive Instr where
  /-- `REQDATA`, opcode 0xC0 (R221). -/
  | reqdata (addr chk : Byte)
  /-- `SETV0`, opcode 0xB0: set voltage, direction 0, power `p` (R222). -/
  | setv0 (addr p chk : Byte)
  /-- `SETV1`, opcode 0xB1: set voltage, direction 1, power `p` (R223). -/
  | setv1 (addr p chk : Byte)
  /-- `PING`, opcode 0xE0 (R224). -/
  | ping (addr chk : Byte)
  /-- `SETLIMIT`, opcode 0xA0: power limit `v` (R225). -/
  | setlimit (addr v chk : Byte)
  /-- `SETID`, opcode 0x70: new identity `v` (R226). -/
  | setid (addr v chk : Byte)
  /-- `CONFIG`, opcode 0x50: flags `f` (R230). -/
  | config (addr f chk : Byte)
  /-- `SENSOR`, opcode 0x40: request byte `v`, not interpreted (R232). -/
  | sensor (addr v chk : Byte)
  /-- `RAW`, opcode 0x55: command byte `cmd` and `payload` (R234). -/
  | raw (addr cmd : Byte) (payload : List Byte) (chk : Byte)
  /-- `PING_R`, opcode 0xE1 (R261). -/
  | pingR (addr chk : Byte)
  /-- `SETID_R`, opcode 0x71 (R262). -/
  | setidR (addr chk : Byte)
  /-- `DATA_R`, opcode 0x80: five words (R263). -/
  | dataR (addr : Byte) (w0 w1 w2 w3 w4 : Word) (chk : Byte)
  /-- `SENSOR_R`, opcode 0x41: three words (R264). -/
  | sensorR (addr : Byte) (x y z : Word) (chk : Byte)
  /-- `RAW_R`, opcode 0x56 (R265). -/
  | rawR (addr chk : Byte)
  /-- `B.S`, opcode 0x55 with command byte 0x53 (R347). -/
  | bS (addr : Byte) (payload : List Byte) (chk : Byte)
  /-- `B.I`, opcode 0x55 with command byte 0x49 (R348). -/
  | bI (addr : Byte) (payload : List Byte) (chk : Byte)
  /-- `B.W`, opcode 0x55 with command byte 0x57; `payload` is checksum low, checksum high, page bytes (R350). -/
  | bW (addr : Byte) (payload : List Byte) (chk : Byte)
  /-- `B.R`, opcode 0x55 with command byte 0x52 (R353). -/
  | bR (addr : Byte) (payload : List Byte) (chk : Byte)
  /-- `B.Y`, status byte 0x59 (R346, R266). -/
  | bY (chk : Byte)
  /-- `B.N`, status byte 0x4E (R346, R266). -/
  | bN (chk : Byte)
deriving DecidableEq, Repr

end Sys2Proof
end

