-- ==== Sys2Proof/WellFormed.lean ====
section
/-! DEFINITION. Which terms of `Instr` have an encoding: a self-describing frame's length is one byte (30_encoding.md R123). -/

namespace Sys2Proof

/-- The payload of a self-describing frame fits its one length byte, `0..255` (R123). Every other field is as wide as its bytes. -/
def Instr.wellFormed : Instr → Bool
  | .raw _ _ payload _ => decide (payload.length ≤ 255)
  | .bS _ payload _ => decide (payload.length ≤ 255)
  | .bI _ payload _ => decide (payload.length ≤ 255)
  | .bW _ payload _ => decide (payload.length ≤ 255)
  | .bR _ payload _ => decide (payload.length ≤ 255)
  | .reqdata .. | .setv0 .. | .setv1 .. | .ping .. | .setlimit .. | .setid .. | .config .. | .sensor .. => true
  | .pingR .. | .setidR .. | .dataR .. | .sensorR .. | .rawR .. | .bY .. | .bN .. => true

end Sys2Proof
end

