-- ==== Sys2Proof/Decode.lean ====
section
/-! DEFINITION. The encoding tables of 30_encoding.md (opcodes, opcode sets, lengths), the decoder (total on any bytes,
rejecting by name) and the encoder written from the same tables. -/

namespace Sys2Proof

/-! ## The encoding tables -/

/-- The sync byte (R9, R17). -/
abbrev sync : Byte := 0xFF

/-- The opcodes of `CMDSET` (R130, R131). -/
abbrev opReqdata : Byte := 0xC0
abbrev opSetv0 : Byte := 0xB0
abbrev opSetv1 : Byte := 0xB1
abbrev opPing : Byte := 0xE0
abbrev opSetlimit : Byte := 0xA0
abbrev opSetid : Byte := 0x70
abbrev opConfig : Byte := 0x50
abbrev opSensor : Byte := 0x40
abbrev opRaw : Byte := 0x55

/-- The opcodes of `RSPSET` (R130, R131). -/
abbrev opPingR : Byte := 0xE1
abbrev opSetidR : Byte := 0x71
abbrev opDataR : Byte := 0x80
abbrev opSensorR : Byte := 0x41
abbrev opRawR : Byte := 0x56

/-- The command bytes of a self-describing frame, ASCII `S`, `I`, `W`, `R` (R9, R123). -/
abbrev cmdS : Byte := 0x53
abbrev cmdI : Byte := 0x49
abbrev cmdW : Byte := 0x57
abbrev cmdR : Byte := 0x52

/-- The status bytes of a boot response, ASCII `Y` and `N` (R124). -/
abbrev statusY : Byte := 0x59
abbrev statusN : Byte := 0x4E

/-- `CMDSET` (R130). -/
def isCommand (op : Byte) : Bool :=
  op == opReqdata || op == opSetv0 || op == opSetv1 || op == opPing || op == opSetlimit || op == opSetid ||
  op == opConfig || op == opSensor || op == opRaw

/-- `RSPSET` (R130). -/
def isResponse (op : Byte) : Bool :=
  op == opPingR || op == opSetidR || op == opDataR || op == opSensorR || op == opRawR

/-- `KNOWN`, by variant (R130, R341). -/
def isKnown : Variant → Byte → Bool
  | .runtime, op => isCommand op || isResponse op
  | .boot, op => op == opRaw || isResponse op

/-- `PLEN(op)` for a command opcode: what `expected` starts at; 1 for the self-describing opcode, whose length byte
comes first (R133, R169). -/
def payloadLen (op : Byte) : BitVec 9 :=
  if op == opReqdata || op == opPing then 0 else 1

/-- `EAT_CMD(op)` of a fixed-length command: `PLEN(op) + 1` (R134). -/
def eatCmd (op : Byte) : BitVec 9 := payloadLen op + 1

/-- `EAT_RESP(op)` (R135). -/
def eatResp (op : Byte) : BitVec 9 :=
  if op == opDataR then 11 else if op == opSensorR then 7 else 1

/-- `LEN_EXTRA` (R10): bytes after the length byte that it does not count. -/
abbrev lenExtra : Nat := 1

/-- The high byte of a word (R12). -/
def hiByte (w : Word) : Byte := w.extractLsb' 8 8

/-- The low byte of a word (R12). -/
def loByte (w : Word) : Byte := w.extractLsb' 0 8

/-- The word sent as the bytes `h`, `l`, big-endian (R86). -/
def wordOf (h l : Byte) : Word := (h ++ l : BitVec 16)

/-! ## The decoder -/

/-- Why bytes are no instruction. -/
inductive DecodeError where
  /-- The bytes end before the frame does. -/
  | short
  /-- The first two bytes are no sync pair (R120). -/
  | noSync
  /-- The byte at offset 2 opens no row of the opcode table (R136). -/
  | unknownOpcode (op : Byte)
deriving DecidableEq, Repr

/-- The answer of a decoder: the instruction and the bytes after it, or the reason there is none. -/
abbrev Decoded := Except DecodeError (Instr × List Byte)

/-- Address and checksum (R121 with P = 0, R122). -/
def decodeBare (f : Byte → Byte → Instr) : List Byte → Decoded
  | a :: c :: rest => .ok (f a c, rest)
  | _ => .error .short

/-- Address, one payload byte, checksum (R121 with P = 1). -/
def decodeOne (f : Byte → Byte → Byte → Instr) : List Byte → Decoded
  | a :: p :: c :: rest => .ok (f a p c, rest)
  | _ => .error .short

/-- Address, five words, checksum (R263). -/
def decodeFiveWords : List Byte → Decoded
  | a :: h0 :: l0 :: h1 :: l1 :: h2 :: l2 :: h3 :: l3 :: h4 :: l4 :: c :: rest =>
    .ok (.dataR a (wordOf h0 l0) (wordOf h1 l1) (wordOf h2 l2) (wordOf h3 l3) (wordOf h4 l4) c, rest)
  | _ => .error .short

/-- Address, three words, checksum (R264). -/
def decodeThreeWords : List Byte → Decoded
  | a :: h0 :: l0 :: h1 :: l1 :: h2 :: l2 :: c :: rest =>
    .ok (.sensorR a (wordOf h0 l0) (wordOf h1 l1) (wordOf h2 l2) c, rest)
  | _ => .error .short

/-- The instruction of a self-describing frame: in the boot variant the command byte selects the boot request (R345),
any other command byte, and every one in the runtime variant, is the row `RAW` (R234). -/
def selfInstr (v : Variant) (a c : Byte) (payload : List Byte) (chk : Byte) : Instr :=
  match v with
  | .runtime => .raw a c payload chk
  | .boot =>
    if c == cmdS then .bS a payload chk
    else if c == cmdI then .bI a payload chk
    else if c == cmdW then .bW a payload chk
    else if c == cmdR then .bR a payload chk
    else .raw a c payload chk

/-- Address, length L, command byte, L payload bytes, checksum (R123). -/
def decodeSelf (v : Variant) : List Byte → Decoded
  | a :: l :: c :: rest =>
    match rest.drop l.toNat with
    | [] => .error .short
    | chk :: after => .ok (selfInstr v a c (rest.take l.toNat) chk, after)
  | _ => .error .short

/-- Status byte's checksum (R124). -/
def decodeStatus (f : Byte → Instr) : List Byte → Decoded
  | c :: rest => .ok (f c, rest)
  | [] => .error .short

/-- The frame that the opcode byte opens (R131, R139). -/
def decodeOpcode (v : Variant) (op : Byte) (rest : List Byte) : Decoded :=
  if op == opReqdata then decodeBare .reqdata rest
  else if op == opSetv0 then decodeOne .setv0 rest
  else if op == opSetv1 then decodeOne .setv1 rest
  else if op == opPing then decodeBare .ping rest
  else if op == opSetlimit then decodeOne .setlimit rest
  else if op == opSetid then decodeOne .setid rest
  else if op == opConfig then decodeOne .config rest
  else if op == opSensor then decodeOne .sensor rest
  else if op == opRaw then decodeSelf v rest
  else if op == opPingR then decodeBare .pingR rest
  else if op == opSetidR then decodeBare .setidR rest
  else if op == opDataR then decodeFiveWords rest
  else if op == opSensorR then decodeThreeWords rest
  else if op == opRawR then decodeBare .rawR rest
  else if op == statusY then decodeStatus .bY rest
  else if op == statusN then decodeStatus .bN rest
  else .error (.unknownOpcode op)

/-- The instruction that opens a byte stream, and the bytes after it. Any address byte and any checksum byte are
accepted: whether they are right is the meaning's to decide (R167, R176; log 4). -/
def decode (v : Variant) : List Byte → Decoded
  | s0 :: s1 :: op :: rest =>
    if s0 == sync && s1 == sync then decodeOpcode v op rest else .error .noSync
  | _ => .error .short

/-! ## The encoder -/

/-- The two bytes of a word on the wire, big-endian (R86). -/
def wordBytes (w : Word) : List Byte := [hiByte w, loByte w]

/-- A self-describing frame (R123). -/
def encodeSelf (a c : Byte) (payload : List Byte) (chk : Byte) : List Byte :=
  [sync, sync, opRaw, a, BitVec.ofNat 8 payload.length, c] ++ payload ++ [chk]

/-- The bytes of an instruction on the wire, first byte first (R121 to R124, R141). -/
def encode : Instr → List Byte
  | .reqdata a c => [sync, sync, opReqdata, a, c]
  | .setv0 a p c => [sync, sync, opSetv0, a, p, c]
  | .setv1 a p c => [sync, sync, opSetv1, a, p, c]
  | .ping a c => [sync, sync, opPing, a, c]
  | .setlimit a v c => [sync, sync, opSetlimit, a, v, c]
  | .setid a v c => [sync, sync, opSetid, a, v, c]
  | .config a f c => [sync, sync, opConfig, a, f, c]
  | .sensor a v c => [sync, sync, opSensor, a, v, c]
  | .raw a cmd payload c => encodeSelf a cmd payload c
  | .pingR a c => [sync, sync, opPingR, a, c]
  | .setidR a c => [sync, sync, opSetidR, a, c]
  | .dataR a w0 w1 w2 w3 w4 c =>
    [sync, sync, opDataR, a] ++ wordBytes w0 ++ wordBytes w1 ++ wordBytes w2 ++ wordBytes w3 ++ wordBytes w4 ++ [c]
  | .sensorR a x y z c => [sync, sync, opSensorR, a] ++ wordBytes x ++ wordBytes y ++ wordBytes z ++ [c]
  | .rawR a c => [sync, sync, opRawR, a, c]
  | .bS a payload c => encodeSelf a cmdS payload c
  | .bI a payload c => encodeSelf a cmdI payload c
  | .bW a payload c => encodeSelf a cmdW payload c
  | .bR a payload c => encodeSelf a cmdR payload c
  | .bY c => [sync, sync, statusY, c]
  | .bN c => [sync, sync, statusN, c]

/-- The variant in whose dialect a term is the decoder's own reading of its bytes: the boot requests are rows of the
boot variant, and there the four command bytes are not `RAW` (R345, R347). -/
def Instr.inDialect : Variant → Instr → Bool
  | .runtime, i =>
    match i with
    | .bS .. | .bI .. | .bW .. | .bR .. => false
    | _ => true
  | .boot, i =>
    match i with
    | .raw _ c _ _ => !(c == cmdS || c == cmdI || c == cmdW || c == cmdR)
    | _ => true

/-! ## Words of the opcode table -/

/-- The longest instruction, a self-describing frame of L = 255 (R139). -/
abbrev longestFrame : Nat := 262

/-- The first `n` bytes of a frame from a number in which they stand most significant first, as `match` and `mask` of
the opcode table do (30_encoding.md, opening paragraph; log 5). -/
def bytesOf : (n : Nat) → (w : Nat) → List Byte
  | 0, _ => []
  | n + 1, w => BitVec.ofNat 8 (w / 256 ^ n) :: bytesOf n w

/-- A table word as the frame's bytes, every byte after the table's bits 0, up to the longest instruction. -/
def tableBytes (nbits w : Nat) : List Byte :=
  bytesOf (nbits / 8) w ++ List.replicate (longestFrame - nbits / 8) 0

/-- The dialect of a table row: only the boot requests' rows reach past the opcode byte (30_encoding.md, opening
paragraph; log 5). -/
def tableVariant (nbits : Nat) : Variant :=
  if 24 < nbits then .boot else .runtime

/-- The instruction the decoder reads from the table's `nbits` bits `w`, every later bit 0. -/
def decodeTableWord (nbits w : Nat) : Option Instr :=
  match decode (tableVariant nbits) (tableBytes nbits w) with
  | .ok (i, _) => some i
  | .error _ => none

end Sys2Proof
end

