-- ==== Sys2Proof/Machine/Memory.lean ====
section
/-! DEFINITION. Sparse byte memories in one canonical form, and what an unlisted address of each address space reads as
(20_memory.md R80). -/

namespace Sys2Proof.Machine

/-- The four address spaces (R80). -/
inductive Space where
  /-- The receive payload buffer (R81). -/
  | rxbuf
  /-- The response buffer (R84). -/
  | txbuf
  /-- The identity store (R90). -/
  | nvm
  /-- The executable memory (R93). -/
  | flash
deriving DecidableEq, Repr

/-- A memory: bytes at addresses. -/
abbrev Memory := List Host.Cell

/-- What an address with no listed byte reads as; `none` where the spec gives no value. `NVM` reads `NVM_INIT` at its
two addresses (R62, R92), `TXBUF` its two sync bytes (R84), `FLASH` and the rest of the buffers nothing (R66, R93;
log 9, log 10). -/
def unlisted (p : Params) : Space → Nat → Option Byte
  | .rxbuf, _ => none
  | .txbuf, a => if a < 2 then some 0xFF else none
  | .nvm, a =>
    if a = p.idNvmAddr then some p.nvmInitId
    else if a = p.idNvmAddr + 1 then some p.nvmInitCfg
    else none
  | .flash, _ => none

/-- The byte at an address, `u` for what is not listed. -/
def Memory.read (u : Nat → Option Byte) : Memory → Nat → Option Byte
  | [], a => u a
  | (k, b) :: m, a => if k = a then some b else Memory.read u m a

/-- The memory with `b` at address `a`, in canonical form again. -/
def Memory.write (u : Nat → Option Byte) : Memory → Nat → Byte → Memory
  | [], a, b => if u a = some b then [] else [(a, b)]
  | (k, v) :: m, a, b =>
    if a < k then (if u a = some b then (k, v) :: m else (a, b) :: (k, v) :: m)
    else if a = k then (if u a = some b then m else (a, b) :: m)
    else (k, v) :: Memory.write u m a b

/-- The canonical form: addresses strictly rising, no entry equal to what an unlisted address reads as. -/
abbrev Memory.wf (u : Nat → Option Byte) (m : Memory) : Prop :=
  m.Pairwise (fun c d => c.1 < d.1) ∧ ∀ c ∈ m, u c.1 ≠ some c.2

/-- `bytes` at the addresses from `a` on. -/
def Memory.writeBytes (u : Nat → Option Byte) (m : Memory) (a : Nat) : List Byte → Memory
  | [] => m
  | b :: bs => Memory.writeBytes u (Memory.write u m a b) (a + 1) bs

/-- The identity in an identity-store byte: bits 6..0 when the marker bit 7 is set, `DEFAULT_ID` when it is clear
(R46, R90). -/
def identityOf (p : Params) (b : Byte) : BitVec 7 :=
  if b.getLsbD 7 then b.extractLsb' 0 7 else p.defaultId

end Sys2Proof.Machine
end

