-- ==== Sys2Proof/Machine/State.lean ====
section
/-! DEFINITION. The machine's state, as 10_state.md lists it, and the state after reset. -/

namespace Sys2Proof.Machine

/-- The receiver's state register (R32). `illegal n` are the unencoded values 9..15 (R190). -/
inductive Phase where
  | syncing
  | awaiting
  | getAddress
  | reading
  | eating
  | verifying
  | pending
  | finished
  | error
  | illegal (n : Fin 7)
deriving DecidableEq, Repr

/-- The 4-bit code of a phase (R32). -/
def Phase.code : Phase → BitVec 4
  | .syncing => 0
  | .awaiting => 1
  | .getAddress => 2
  | .reading => 3
  | .eating => 4
  | .verifying => 5
  | .pending => 6
  | .finished => 7
  | .error => 8
  | .illegal n => BitVec.ofNat 4 (9 + n.val)

/-- The turnaround controller's state register (R52). -/
inductive TaState where
  | rx
  | mute
  | pre
  | tx
  | drain
  | post
  | rel
  | trail
deriving DecidableEq, Repr

/-- The 3-bit code of a turnaround state (R52). -/
def TaState.code : TaState → BitVec 3
  | .rx => 0
  | .mute => 1
  | .pre => 2
  | .tx => 3
  | .drain => 4
  | .post => 5
  | .rel => 6
  | .trail => 7

/-- The causes of a framing error, the values of `last_cause` (R44, R382). Codes 6 and 7 are never written. -/
inductive Cause where
  | none
  | badChecksum
  | addrRange
  | inactivity
  | idRange
  | lenRange
deriving DecidableEq, Repr

/-- The 3-bit code of a cause (R44). -/
def Cause.code : Cause → BitVec 3
  | .none => 0
  | .badChecksum => 1
  | .addrRange => 2
  | .inactivity => 3
  | .idRange => 4
  | .lenRange => 5

/-- The values of `fatal_code` (R45, R387). -/
inductive FatalCode where
  | none
  | unknownOpcode
  | txOverflow
  | illegalState
deriving DecidableEq, Repr

/-- The 2-bit code of a fatal cause (R45). -/
def FatalCode.code : FatalCode → BitVec 2
  | .none => 0
  | .unknownOpcode => 1
  | .txOverflow => 2
  | .illegalState => 3

/-- One strobe to a collaborator (R60, R61, R63, R95). -/
inductive Call where
  | motorEnable
  | motorDisable
  | setTargetPower (v : Byte)
  | setTargetDirection (d : Bool)
  | setPowerLimit (v : Byte)
  | sensorRestart
  | timerIrqMask (on : Bool)
  | flashErase (a : Nat)
  | flashFill (bytes : List Byte)
  | flashCommit (a : Nat)
  | flashWait
  | flashResume
deriving DecidableEq, Repr

/-- Everything the spec gives the machine, and the model's own `ports`, `inputs`, `clock`, `resetTicks` (INVENTORY.md). -/
structure State where
  /-- The parameters of R10; no step changes them. -/
  par : Params
  /-- The input pins and draws of the step in progress (R56 to R63). The model's own field. -/
  ports : Ports
  /-- The inputs still to come, oldest first. The model's own field. -/
  inputs : List Input
  /-- How many steps have run. The model's own field. -/
  clock : Nat
  /-- `phase` (R32). -/
  phase : Phase
  /-- `half_synced` (R34). -/
  halfSynced : Bool
  /-- `opcode` (R35). -/
  opcode : Byte
  /-- `addr` (R36). -/
  addr : Byte
  /-- `count` (R37). -/
  count : BitVec 9
  /-- `expected` (R38). -/
  expected : BitVec 9
  /-- `eat` (R39). -/
  eat : BitVec 9
  /-- `eat_dyn` (R40). -/
  eatDyn : Bool
  /-- `acc` (R41). -/
  acc : Byte
  /-- `wdt` (R42). -/
  wdt : BitVec 16
  /-- `err_count` (R43). -/
  errCount : Byte
  /-- `last_cause` (R44). -/
  lastCause : Cause
  /-- `fatal` (R45). -/
  fatal : Bool
  /-- `fatal_code` (R45). -/
  fatalCode : FatalCode
  /-- `own_id` (R46). -/
  ownId : BitVec 7
  /-- `cfg`, also the level output `cfg_flags` (R47, R60). -/
  cfg : Byte
  /-- `handoff_pending` (R48). -/
  handoffPending : Bool
  /-- `stopped` (R48). -/
  stopped : Bool
  /-- `reset_pending` (R49). -/
  resetPending : Bool
  /-- `cursor`, a flash byte address, or `APP_LIMIT` when every page is written (R50, R352, R356; log 11). -/
  cursor : Nat
  /-- `variant` (R51). -/
  variant : Variant
  /-- `ta_state` (R52). -/
  taState : TaState
  /-- `ta_timer` (R52). -/
  taTimer : BitVec 16
  /-- `ta_idx` (R52). -/
  taIdx : BitVec 9
  /-- `de`, drive enable (R52, R59). -/
  de : Bool
  /-- `re`, read enable (R52, R59). -/
  re : Bool
  /-- `tx_len` (R53). -/
  txLen : BitVec 9
  /-- `tx_chk` (R53). -/
  txChk : Byte
  /-- `RXBUF` (R81). -/
  rxbuf : Memory
  /-- `TXBUF` (R84). -/
  txbuf : Memory
  /-- The identity store (R90). -/
  nvm : Memory
  /-- The executable memory (R93). -/
  flash : Memory
  /-- The receive interface: bytes delivered and not yet popped; `rx_valid` and `rx_data` are its head (R56). -/
  rxq : List Byte
  /-- `rx_pop`, a strobe (R56). -/
  rxPop : Bool
  /-- `tx_data` (R58). -/
  txData : Byte
  /-- `tx_write`, a strobe (R58). -/
  txWrite : Bool
  /-- The collaborator strobes of the last step, in the order issued, committed together (R60, R61, R100). -/
  calls : List Call
  /-- `boot_handoff` (R65). -/
  bootHandoff : Bool
  /-- `sys_reset_req` (R65). -/
  sysResetReq : Bool
  /-- `timer_irq_mask` (R63, R95). -/
  timerIrqMask : Bool
  /-- The platform's count of ticks since `sys_reset_req` rose (R353, R396). The model's own field. -/
  resetTicks : Nat
deriving DecidableEq, Repr

/-- Why a run has no next state. -/
inductive Fault where
  /-- A `W` that passes its checks with `cursor ≥ APP_LIMIT`; raised by the page write of `B.W`. Safe: the spec asks for
  this fault (R356, I4). -/
  | pageBeyondLimit
  /-- A page write that runs past the end of `FLASH`; raised by the page write of `B.W` with a cursor or parameters that
  no legal run has. Safe: such an address does not exist (R80). -/
  | flashRange
  /-- A payload byte for an index past the end of `RXBUF`; raised by a receiver step with a `count` that no legal run
  has. Safe: such an address does not exist (R80, R83). -/
  | rxBufRange
deriving DecidableEq, Repr

/-- Why an instruction is refused. -/
inductive Refusal where
  /-- An instruction of the table that has no meaning yet; raised by `exec`. Safe. No arm uses it. -/
  | notModelled (mnemonic : String)
deriving DecidableEq, Repr

/-- The outcome of a step of this machine. -/
abbrev Result := Host.Outcome State Fault Refusal

/-- The registers after the reset sequence, given what reset keeps (`nvm`, `flash`, R434), the pins of that step and
the model's own input list and step count (R66, R430, R431). -/
def State.afterReset (par : Params) (nvm flash : Memory) (ports : Ports) (inputs : List Input) (clock : Nat) : State where
  par := par
  ports := ports
  inputs := inputs
  clock := clock
  phase := .syncing
  halfSynced := false
  opcode := 0x00
  addr := 0x00
  count := 0
  expected := 0
  eat := 0
  eatDyn := false
  acc := 0
  wdt := 0
  errCount := 0
  lastCause := .none
  fatal := false
  fatalCode := .none
  ownId := identityOf par ((Memory.read (unlisted par .nvm) nvm par.idNvmAddr).getD par.nvmInitId)
  cfg := (Memory.read (unlisted par .nvm) nvm (par.idNvmAddr + 1)).getD par.nvmInitCfg
  handoffPending := false
  stopped := false
  resetPending := false
  cursor := 0
  variant := ports.strap
  taState := .rx
  taTimer := 0
  taIdx := 0
  de := false
  re := true
  txLen := 2
  txChk := 0
  rxbuf := []
  txbuf := []
  nvm := nvm
  flash := flash
  rxq := ports.rxAfterReset
  rxPop := false
  txData := 0x00
  txWrite := false
  calls := []
  bootHandoff := false
  sysResetReq := false
  timerIrqMask := false
  resetTicks := 0

/-- First power-up of a device: nothing written in any memory, no input scripted (R430). -/
def State.powerUp (par : Params) (ports : Ports) : State := State.afterReset par [] [] ports [] 0

/-- The machine right after reset, with the platform's parameters and pins left open (R10, R430). -/
def State.reset : State := State.powerUp Config.params Config.portsAtReset

end Sys2Proof.Machine
end

