-- ==== Sys2Proof/Machine/Flags.lean ====
section
/-! DEFINITION. The block has no condition codes (10_state.md R68): this file holds what takes their place, the frame
checksum (30_encoding.md R125) and the one-bit conditions that the rules read. -/

namespace Sys2Proof.Machine

/-- The sum of bytes modulo 256 (R16). -/
def sumBytes : List Byte → Byte
  | [] => 0
  | b :: bs => b + sumBytes bs

/-- The checksum byte that makes a byte list sum to 0 modulo 256, its two's complement (R16, R272). -/
def checksumOf (bytes : List Byte) : Byte := 0 - sumBytes bytes

/-- The sum of bytes as a number, no modulus (R351). -/
def sumNat : List Byte → Nat
  | [] => 0
  | b :: bs => b.toNat + sumNat bs

/-- A frame is valid when all its bytes, sync bytes included, sum to 0 modulo 256 (R125). -/
def checksumValid (i : Instr) : Bool := sumBytes (encode i) == 0

/-- The phases that consume a byte (R32, R160). -/
def Phase.consumes : Phase → Bool
  | .syncing | .awaiting | .getAddress | .reading | .eating | .verifying => true
  | .pending | .finished | .error | .illegal _ => false

/-- Neither agent of a halted block steps, and the receiver of a stopped one does not (R160, R386). -/
def State.receiverHalted (s : State) : Bool := s.fatal || s.stopped

/-- The receiver is at a frame boundary and runs: in `Syncing` with no sync byte seen (R34, R187). -/
def State.ready (s : State) : Bool :=
  !s.fatal && !s.stopped && s.phase == .syncing && !s.halfSynced

/-- `rx_valid` (R56). -/
def State.rxValid (s : State) : Bool := !s.rxq.isEmpty

/-- `cfg_flags`, the level output to the motor core (R60). -/
def State.cfgFlags (s : State) : Byte := s.cfg

end Sys2Proof.Machine
end

