-- ==== Sys2Proof/Machine/Operands.lean ====
section
/-! DEFINITION. The operand forms: what the rules read from the address spaces and the registers (20_memory.md R89,
30_encoding.md R129). -/

namespace Sys2Proof.Machine

/-- An address space's memory. -/
def State.memory (s : State) : Space → Memory
  | .rxbuf => s.rxbuf
  | .txbuf => s.txbuf
  | .nvm => s.nvm
  | .flash => s.flash

/-- One byte of an address space; `none` where nothing has been written and the spec gives no value. -/
def State.load (s : State) (sp : Space) (a : Nat) : Option Byte :=
  Memory.read (unlisted s.par sp) (s.memory sp) a

/-- `RXBUF[i]`; a byte nothing has written is a free value (R66, I8; log 9). -/
def State.rxByte (s : State) (i : Nat) : Byte := (s.load .rxbuf i).getD (Config.unwrittenByte s.clock i)

/-- `TXBUF[i]`; a byte nothing has written is a free value (R66, I8; log 9). -/
def State.txByte (s : State) (i : Nat) : Byte := (s.load .txbuf i).getD (Config.unwrittenByte s.clock i)

/-- `MemRead(NVM, ID_NVM_ADDR, 1)`: the last byte written there, or `NVM_INIT` (R62, R92). -/
def State.nvmIdentity (s : State) : Byte := (s.load .nvm s.par.idNvmAddr).getD s.par.nvmInitId

/-- `MemRead(NVM, ID_NVM_ADDR + 1, 1)` (R62, R92). -/
def State.nvmConfig (s : State) : Byte := (s.load .nvm (s.par.idNvmAddr + 1)).getD s.par.nvmInitCfg

/-- `zext_8(own_id)`, the address byte of this device (R127). -/
def State.ownByte (s : State) : Byte := s.ownId.zeroExtend 8

/-- `RXBUF[from .. from+n-1]` (R81). -/
def State.rxSlice (s : State) (start n : Nat) : List Byte := (List.range n).map (fun i => s.rxByte (start + i))

/-- The response queued in `TXBUF`, sync bytes included: `TXBUF[0 .. tx_len-1]` (R84). -/
def State.txQueued (s : State) : List Byte := (List.range s.txLen.toNat).map s.txByte

/-- `TXBUF` with bytes appended at `tx_len` (R270). -/
def State.txAppended (s : State) (bytes : List Byte) : Memory :=
  Memory.writeBytes (unlisted s.par .txbuf) s.txbuf s.txLen.toNat bytes

/-- `RXBUF` with a payload from index 0 on (R171). -/
def State.rxFilled (s : State) (payload : List Byte) : Memory :=
  Memory.writeBytes (unlisted s.par .rxbuf) s.rxbuf 0 payload

/-- The self-described length L of the request in `RXBUF` (R123). -/
def State.requestLength (s : State) : Nat := (s.rxByte 0).toNat

/-- The command byte of the request in `RXBUF` (R123). -/
def State.requestCommand (s : State) : Byte := s.rxByte 1

/-- The page bytes of a `W` request (R350). -/
def State.requestPage (s : State) : List Byte := s.rxSlice 4 s.par.pageSize

/-- The page checksum embedded in a `W` request, little-endian (R86, R350). -/
def State.requestChecksum (s : State) : Nat := (s.rxByte 2).toNat + 256 * (s.rxByte 3).toNat

/-- The acceptance checks of `W`: length, then page checksum (R351). -/
def State.pageAccepted (s : State) : Bool :=
  decide (s.requestLength = s.par.pageSize + 2) && decide (sumNat s.requestPage % 65536 = s.requestChecksum)

/-- `Telemetry()` as the ten bytes sent, each word high byte first (R86, R237). -/
def State.telemetryBytes (s : State) : List Byte :=
  wordBytes s.ports.pos ++ wordBytes s.ports.cur ++ wordBytes s.ports.vel ++ wordBytes s.ports.vsup ++
    wordBytes s.ports.temp

/-- `Sensor.get_values()` as the six bytes sent (R86, R233). -/
def State.sensorBytes (s : State) : List Byte :=
  wordBytes s.ports.sensorX ++ wordBytes s.ports.sensorY ++ wordBytes s.ports.sensorZ

end Sys2Proof.Machine
end

