-- ==== Sys2Proof/Machine/Ops.lean ====
section
/-! DEFINITION. The named operations over memories and registers that the rules share: stores, collaborator calls,
framing errors and fatal halts (60_exceptions.md), the identity store, the response encoder (42_responses.md), the page
write (20_memory.md R95) and the reset sequence (70_reset_and_hazards.md). -/

namespace Sys2Proof.Machine

/-! ## Memories -/

/-- The state with an address space's memory replaced. -/
def State.setMemory (s : State) (sp : Space) (m : Memory) : State :=
  match sp with
  | .rxbuf => { s with rxbuf := m }
  | .txbuf => { s with txbuf := m }
  | .nvm => { s with nvm := m }
  | .flash => { s with flash := m }

/-- One byte stored into an address space (R98). -/
def State.store (s : State) (sp : Space) (a : Nat) (b : Byte) : State :=
  s.setMemory sp (Memory.write (unlisted s.par sp) (s.memory sp) a b)

/-- Bytes stored from an address on. -/
def State.storeBytes (s : State) (sp : Space) (a : Nat) (bytes : List Byte) : State :=
  s.setMemory sp (Memory.writeBytes (unlisted s.par sp) (s.memory sp) a bytes)

/-! ## Strobes -/

/-- A step begins with every strobe low (R56, R300; log 16). -/
def State.clearStrobes (s : State) : State := { s with rxPop := false, txWrite := false, calls := [] }

/-- A collaborator strobe, issued after those before it (R60, R61). -/
def State.call (s : State) (c : Call) : State := { s with calls := s.calls ++ [c] }

/-- The bytes of a frame back at the head of the receive interface, not consumed (R56, R188). -/
def State.unread (s : State) (bytes : List Byte) : State := { s with rxq := bytes ++ s.rxq }

/-! ## Taking an exception -/

/-- `raise FramingError(cause)` (R381). The way back is `Error`, `Finished`, `Syncing` (R385). -/
def State.raiseFraming (s : State) (c : Cause) : State := { s with lastCause := c, phase := .error }

/-- `raise Fatal(code)`: the block halts with the line in receive mode (R386). Only reset ends it. -/
def State.raiseFatal (s : State) (c : FatalCode) : State :=
  { s with fatal := true, fatalCode := c, de := false, re := true, taState := .rx }

/-- The next statement of a step, unless the block halted in an earlier one (R390). -/
def State.andThen (s : State) (f : State → State) : State := if s.fatal then s else f s

/-! ## The identity store -/

/-- `MemWrite(NVM, a, 1, v)`; a store that fails keeps a byte of its own instead (R92, I25; log 8). -/
def State.nvmWrite (s : State) (a : Nat) (v : Byte) : State := s.store .nvm a (s.ports.nvmFault.getD v)

/-- The load of the identity from the store (R46, R229, R431). -/
def State.loadIdentity (s : State) : State := { s with ownId := identityOf s.par s.nvmIdentity }

/-- The load of the configuration byte from the store (R47, R231, R431). -/
def State.loadConfig (s : State) : State := { s with cfg := s.nvmConfig }

/-! ## The response encoder -/

/-- `TxAddByte(b)` (R270). A buffer that is full, or beyond, halts the block (log 14). -/
def State.txAddByte (s : State) (b : Byte) : State :=
  if s.par.txBufCap ≤ s.txLen.toNat then s.raiseFatal .txOverflow
  else { s.store .txbuf s.txLen.toNat b with txLen := s.txLen + 1 }

/-- `TxAddByte` for each byte in turn; nothing follows a halt (R270, R271, R390). A word is its two bytes, high first. -/
def State.txAddBytes (s : State) : List Byte → State
  | [] => s
  | b :: bs => if (s.txAddByte b).fatal then s.txAddByte b else State.txAddBytes (s.txAddByte b) bs

/-- `TxFlush()` (R272, R275). -/
def State.txFlush (s : State) : State :=
  if s.txLen = 2 then s
  else { s with txChk := checksumOf s.txQueued, taIdx := 0, taState := .mute }

/-- `TxDiscard()` (R273). -/
def State.txDiscard (s : State) : State := { s with txLen := 2 }

/-! ## The flash page write -/

/-- `FlashPageWrite(a, bytes)`: the strobes in order, and the net effect on `FLASH` (R95). The timer interrupt mask is
up from the first to the last of them, which is inside the step. -/
def State.flashPageWrite (s : State) (a : Nat) (bytes : List Byte) : State :=
  { s.storeBytes .flash a bytes with
    calls := s.calls ++ [.timerIrqMask true, .flashErase a, .flashFill bytes, .flashCommit a, .flashWait, .flashResume,
      .timerIrqMask false]
    timerIrqMask := false }

/-- What the cursor holds after the advance: `cursor + PAGE_SIZE`, a sum of unbounded numbers (R352, R12), also where it
is `APP_LIMIT = 2 ^ FLASH_ADDR_W` (log 11). -/
def State.advancedCursor (s : State) : Nat := s.cursor + s.par.pageSize

/-! ## Reset -/

/-- The reset sequence: the strap latched, every register at its reset value, identity and configuration loaded; the
parameters, `NVM` and `FLASH` stay (R430, R431, R434). -/
def State.resetSequence (s : State) : State := State.afterReset s.par s.nvm s.flash s.ports s.inputs s.clock

/-- The receiver's next step would write a flash page: a valid `W` request in `Pending` of the boot variant (R350). -/
def State.pageWriteDue (s : State) : Bool :=
  !s.receiverHalted && s.phase == .pending && s.variant == .boot && s.opcode == opRaw && s.requestCommand == cmdW &&
    s.pageAccepted && decide (s.cursor < s.par.appLimit) &&
    decide (s.cursor + s.par.pageSize ≤ 2 ^ s.par.flashAddrW)

/-- A reset that may cut into the page write in progress: the page then holds bytes the spec leaves open (R435, D45;
log 19). -/
def State.externalReset (s : State) (torn : Option (List Byte)) : State :=
  match torn with
  | none => s.resetSequence
  | some page =>
    if s.pageWriteDue then (s.storeBytes .flash s.cursor (page.take s.par.pageSize)).resetSequence
    else s.resetSequence

end Sys2Proof.Machine
end

