-- ==== Sys2Proof/Machine/Receiver.lean ====
section
/-! DEFINITION. The frame synchronizer, parser, address filter and checksum validator: one definition per phase of
40_receiver.md. Each takes the byte the step consumed. -/

namespace Sys2Proof.Machine

/-- `Syncing` (R161, R162, R163). -/
def State.rxSyncing (s : State) (b : Byte) : State :=
  if b = sync then
    if s.halfSynced then { s with halfSynced := false, acc := s.acc + b, phase := .awaiting }
    else { s with halfSynced := true, acc := s.acc + b }
  else { s with halfSynced := false, phase := .finished }

/-- `Awaiting`: the opcode byte (R164, R165). -/
def State.rxAwaiting (s : State) (b : Byte) : State :=
  if isKnown s.variant b then { s with opcode := b, acc := s.acc + b, phase := .getAddress }
  else { s with opcode := b, phase := .finished }

/-- `GetAddress`: the address filter, its rules in the order written (R166 to R170, R389). An opcode of neither set has
no transition: it halts the block as an illegal state does (R380; log 15). -/
def State.rxGetAddress (s : State) (b : Byte) : State :=
  if isResponse s.opcode then
    { s with addr := b, acc := s.acc + b, eat := eatResp s.opcode, eatDyn := false, phase := .eating }
  else if !isCommand s.opcode then s.raiseFatal .illegalState
  else if 127 < b.toNat then { s with addr := b }.raiseFraming .addrRange
  else if b = s.ownByte then
    if payloadLen s.opcode = 0 then { s with addr := b, acc := s.acc + b, phase := .verifying }
    else { s with addr := b, acc := s.acc + b, count := 0, expected := payloadLen s.opcode, phase := .reading }
  else if s.opcode = opRaw then { s with addr := b, eat := 1, eatDyn := true, phase := .eating }
  else { s with addr := b, eat := eatCmd s.opcode, eatDyn := false, phase := .eating }

/-- The end of a `Reading` step: the payload is complete or it is not (R173). -/
def State.rxPayloadEnd (s : State) : State := if s.count = s.expected then { s with phase := .verifying } else s

/-- `Reading`: store the byte, then the self-described length, then the end test (R171, R172, R173). -/
def State.rxReading (s : State) (b : Byte) : State :=
  let stored := { s.store .rxbuf s.count.toNat b with count := s.count + 1, acc := s.acc + b }
  if s.opcode = opRaw ∧ stored.count = 1 then
    if s.par.rxBufCap < 1 + lenExtra + b.toNat then stored.raiseFraming .lenRange
    else { stored with expected := BitVec.ofNat 9 (1 + lenExtra + b.toNat) }.rxPayloadEnd
  else stored.rxPayloadEnd

/-- `Eating` (R174, R175). -/
def State.rxEating (s : State) (b : Byte) : State :=
  if s.eatDyn then { s with eatDyn := false, eat := BitVec.ofNat 9 (lenExtra + b.toNat + 1) }
  else if s.eat - 1 = 0 then { s with eat := s.eat - 1, phase := .finished }
  else { s with eat := s.eat - 1 }

/-- `Verifying`: the checksum byte, then the identity range (R176, R389). -/
def State.rxVerifying (s : State) (b : Byte) : State :=
  let summed := { s with acc := s.acc + b }
  if summed.acc ≠ 0 then summed.raiseFraming .badChecksum
  else if s.variant = .runtime ∧ s.opcode = opSetid ∧ 128 ≤ (s.rxByte 0).toNat then summed.raiseFraming .idRange
  else { summed with phase := .pending }

/-- `byte_rule(phase, b)` (R160); the other phases consume no byte. -/
def State.byteRule (s : State) (b : Byte) : State :=
  match s.phase with
  | .syncing => s.rxSyncing b
  | .awaiting => s.rxAwaiting b
  | .getAddress => s.rxGetAddress b
  | .reading => s.rxReading b
  | .eating => s.rxEating b
  | .verifying => s.rxVerifying b
  | .pending => s
  | .finished => s
  | .error => s
  | .illegal _ => s

/-- A step that consumes a byte: the watchdog cleared, then the phase's rule (R160). -/
def State.consume (s : State) (b : Byte) : State := { s with wdt := 0, rxPop := true }.byteRule b

/-- A step that finds no byte: nothing in `Syncing`, else the inactivity watchdog (R179, R180). -/
def State.idle (s : State) : State :=
  if s.phase = .syncing then s
  else if s.wdt + 1 = s.par.wdtLimit then { s with wdt := s.wdt + 1 }.raiseFraming .inactivity
  else { s with wdt := s.wdt + 1 }

/-- `Error` (R177). -/
def State.errorPhase (s : State) : State :=
  { { s with errCount := if s.errCount = 255 then s.errCount else s.errCount + 1 }.txDiscard with phase := .finished }

/-- The deferred control transfers (R185). -/
def State.deferredTransfers (s : State) : State :=
  { s with
    bootHandoff := s.bootHandoff || s.handoffPending
    sysResetReq := s.sysResetReq || s.resetPending
    stopped := s.stopped || s.handoffPending || s.resetPending }

/-- The end of a message: its registers cleared, the transfers made, back to `Syncing` (R184, R185). -/
def State.endMessage (s : State) : State :=
  { { s with
      acc := 0
      count := 0
      expected := 0
      eat := 0
      eatDyn := false
      opcode := 0x00
      addr := 0x00
      halfSynced := false
      wdt := 0 }.deferredTransfers with
    phase := .syncing }

/-- `Finished`: hold while a flush is in progress, start the flush of a queued response, or end the message (R182,
R183, R184; log 22). -/
def State.finishedPhase (s : State) : State :=
  if s.taState ≠ .rx then s
  else if 2 < s.txLen.toNat then s.txFlush
  else s.endMessage

/-- The receiver's next step consumes a byte if one is there (R160). -/
def State.takesByte (s : State) : Bool := !s.receiverHalted && s.phase.consumes

/-- Bytes consumed one after another while the receiver takes a byte; the bytes left when it does not (R160, R188). -/
def State.feed (s : State) : List Byte → State × List Byte
  | [] => (s, [])
  | b :: bs => if s.takesByte then State.feed (s.consume b) bs else (s, b :: bs)

/-- A frame's bytes put to the receiver, one a service step; what the receiver does not consume stays at the head of
the receive interface (R188). -/
def State.receive (s : State) (frame : List Byte) : State :=
  let fed := s.clearStrobes.feed frame
  fed.1.unread fed.2

/-- The effect of a frame that never reaches `Pending`: a response, eaten or dropped (R260, R277). -/
def State.noEffect (s : State) : State := s

/-- The end of a `Pending` step: `Finished`, unless the block halted (R181, R389). -/
def State.endDispatch (s : State) : State := if s.fatal then s else { s with phase := .finished }

/-- The service step after a frame's last byte: dispatch with the frame's own effect in `Pending`, the count in
`Error`, none when the frame was eaten or dropped (R181, R177, R189) or the block has halted (R386). -/
def State.commit (s : State) (body : State → State) : State :=
  if s.receiverHalted then s
  else match s.phase with
    | .pending => (body s.clearStrobes).endDispatch
    | .error => s.clearStrobes.errorPhase
    | _ => s

/-- A frame executed whole: received, then committed. When the receiver is not at a frame boundary, or is halted, the
frame waits at the receive interface (R56, R160; log 2, log 3). -/
def runFrame (frame : List Byte) (body : State → State) (s : State) : Result :=
  .next (if s.ready then (s.receive frame).commit body else s.unread frame)

end Sys2Proof.Machine
end

