-- ==== Sys2Proof/Machine/Runtime.lean ====
section
/-! DEFINITION. Command dispatch of the runtime variant (41_commands.md): the effect of each command in `Pending`, and
the meaning of each command's frame. -/

namespace Sys2Proof.Machine

/-! ## The effects in `Pending` -/

/-- `send_telemetry()` (R237). -/
def State.sendTelemetry (s : State) : State := s.txAddBytes ([opDataR, s.ownByte] ++ s.telemetryBytes)

/-- `REQDATA` (R221). -/
def State.reqdataBody (s : State) : State := ((s.call .motorDisable).call (.setTargetPower 0)).sendTelemetry

/-- Set voltage: the direction is the opcode's low bit (R128, R222). -/
def State.setVoltageBody (s : State) : State :=
  (((s.call (.setTargetDirection (s.opcode.getLsbD 0))).call (.setTargetPower (s.rxByte 0))).call
    .motorEnable).sendTelemetry

/-- `SETV0` (R222). -/
def State.setv0Body (s : State) : State := s.setVoltageBody

/-- `SETV1` (R223). -/
def State.setv1Body (s : State) : State := s.setVoltageBody

/-- `PING` (R224). -/
def State.pingBody (s : State) : State := s.txAddBytes [opPingR, s.ownByte]

/-- `SETLIMIT` (R225). -/
def State.setlimitBody (s : State) : State := s.call (.setPowerLimit (s.rxByte 0))

/-- The acknowledgement of `SETID`, under the identity read back (R226, R229). -/
def State.setidReply (s : State) : State := s.txAddBytes [opSetidR, s.ownByte]

/-- `SETID`: write through, read back, answer under the new identity (R226, R228, R229). -/
def State.setidBody (s : State) : State :=
  (s.nvmWrite s.par.idNvmAddr (0x80 ||| s.rxByte 0)).loadIdentity.setidReply

/-- `CONFIG` (R230, R231). -/
def State.configBody (s : State) : State := (s.nvmWrite (s.par.idNvmAddr + 1) (s.rxByte 0)).loadConfig

/-- `SENSOR`: the values of the reading before, then the restart, then the response (R232, R233). -/
def State.sensorBody (s : State) : State :=
  (s.call .sensorRestart).txAddBytes ([opSensorR, s.ownByte] ++ s.sensorBytes)

/-- The runtime handshake (R236). -/
def State.handshakeBody (s : State) : State :=
  ((s.call .motorDisable).txAddBytes [opRawR, s.ownByte]).andThen fun t => { t with handoffPending := true }

/-- `RAW` in the runtime variant: the handshake when the command byte is `'S'`, else nothing (R234, R235). -/
def State.rawBody (s : State) : State := if s.requestCommand = cmdS then s.handshakeBody else s

/-- `dispatch_runtime(op)`, and the halt for an opcode outside `CMDSET` (R181, R387). -/
def State.dispatchRuntime (s : State) (op : Byte) : State :=
  if op = opReqdata then s.reqdataBody
  else if op = opSetv0 then s.setv0Body
  else if op = opSetv1 then s.setv1Body
  else if op = opPing then s.pingBody
  else if op = opSetlimit then s.setlimitBody
  else if op = opSetid then s.setidBody
  else if op = opConfig then s.configBody
  else if op = opSensor then s.sensorBody
  else if op = opRaw then s.rawBody
  else s.raiseFatal .unknownOpcode

/-! ## The meanings of the frames -/

/-- `REQDATA` (R221). In the boot variant its opcode is unknown and the frame is dropped (R341). -/
def execReqdata (addr chk : Byte) (s : State) : Result := runFrame (encode (.reqdata addr chk)) State.reqdataBody s

/-- `SETV0` (R222). -/
def execSetv0 (addr p chk : Byte) (s : State) : Result := runFrame (encode (.setv0 addr p chk)) State.setv0Body s

/-- `SETV1` (R223). -/
def execSetv1 (addr p chk : Byte) (s : State) : Result := runFrame (encode (.setv1 addr p chk)) State.setv1Body s

/-- `PING` (R224). -/
def execPing (addr chk : Byte) (s : State) : Result := runFrame (encode (.ping addr chk)) State.pingBody s

/-- `SETLIMIT` (R225). -/
def execSetlimit (addr v chk : Byte) (s : State) : Result :=
  runFrame (encode (.setlimit addr v chk)) State.setlimitBody s

/-- `SETID` (R226, R227). -/
def execSetid (addr v chk : Byte) (s : State) : Result := runFrame (encode (.setid addr v chk)) State.setidBody s

/-- `CONFIG` (R230). -/
def execConfig (addr f chk : Byte) (s : State) : Result := runFrame (encode (.config addr f chk)) State.configBody s

/-- `SENSOR` (R232). -/
def execSensor (addr v chk : Byte) (s : State) : Result := runFrame (encode (.sensor addr v chk)) State.sensorBody s

end Sys2Proof.Machine
end

