-- ==== Sys2Proof/Machine/Boot.lean ====
section
/-! DEFINITION. The firmware-update commands of the boot variant (44_boot_variant.md) and the meanings of the
self-describing frames. -/

namespace Sys2Proof.Machine

/-! ## The effects in `Pending` -/

/-- The one response byte of a dispatched request: `'Y'` or `'N'` (R345, R346). -/
def State.answer (s : State) (ok : Bool) : State := s.txAddBytes [if ok then statusY else statusN]

/-- `B.S`: acknowledge (R347). -/
def State.bootSBody (s : State) : State := s.answer true

/-- `B.I`: all three signature bytes match, in order (R348, R349). -/
def State.bootIBody (s : State) : State := s.answer (s.ports.sigIn == s.par.sigExpected)

/-- `B.R`: the reset is deferred until the answer is out (R353). -/
def State.bootRBody (s : State) : State := { s with resetPending := true }.answer true

/-- Any other command byte fails (R354). -/
def State.bootOtherBody (s : State) : State := s.answer false

/-- An accepted page: written at the cursor, the cursor advanced, `'Y'` (R352). -/
def State.programPage (s : State) : State :=
  { s.flashPageWrite s.cursor s.requestPage with cursor := s.advancedCursor }.answer true

/-- `B.W`: the checks, then the page write; a cursor at or above `APP_LIMIT` has no successor (R350, R351, R356;
log 12, log 13). -/
def State.bootWBody (s : State) : Result :=
  if !s.pageAccepted then .next (s.answer false)
  else if s.par.appLimit ≤ s.cursor then .fault .pageBeyondLimit
  else if 2 ^ s.par.flashAddrW < s.cursor + s.par.pageSize then .fault .flashRange
  else .next s.programPage

/-- The end of a `Pending` step whose effect may have no successor (R181, R356). -/
def endDispatchOf : Result → Result
  | .next s => .next s.endDispatch
  | .fault r => .fault r
  | .refused r => .refused r

/-- `dispatch_boot(c)` and the end of its step (R345, R181). -/
def State.dispatchBoot (s : State) (c : Byte) : Result :=
  if c = cmdS then .next s.bootSBody.endDispatch
  else if c = cmdI then .next s.bootIBody.endDispatch
  else if c = cmdW then endDispatchOf s.bootWBody
  else if c = cmdR then .next s.bootRBody.endDispatch
  else .next s.bootOtherBody.endDispatch

/-! ## The meanings of the frames -/

/-- A frame executed whole in the boot variant, its dispatch (with the end of its step) given. -/
def runBootFrame (frame : List Byte) (dispatch : State → Result) (s : State) : Result :=
  if s.ready then
    if !(s.receive frame).receiverHalted && (s.receive frame).phase == .pending then
      dispatch (s.receive frame).clearStrobes
    else .next ((s.receive frame).commit State.noEffect)
  else .next (s.unread frame)

/-- `RAW` (R234). In the boot variant the command byte selects the request, and one that names none is answered `'N'`
(R345, R354). -/
def execRaw (addr cmd : Byte) (payload : List Byte) (chk : Byte) (s : State) : Result :=
  match s.variant with
  | .runtime => runFrame (encode (.raw addr cmd payload chk)) State.rawBody s
  | .boot => runBootFrame (encode (.raw addr cmd payload chk)) (fun t => t.dispatchBoot t.requestCommand) s

/-- `B.S` (R347). In the runtime variant the same bytes are the handshake (R347, R236). -/
def execBS (addr : Byte) (payload : List Byte) (chk : Byte) (s : State) : Result :=
  match s.variant with
  | .runtime => runFrame (encode (.bS addr payload chk)) State.rawBody s
  | .boot => runFrame (encode (.bS addr payload chk)) State.bootSBody s

/-- `B.I` (R348). In the runtime variant the same bytes are a `RAW` with another command byte (R235). -/
def execBI (addr : Byte) (payload : List Byte) (chk : Byte) (s : State) : Result :=
  match s.variant with
  | .runtime => runFrame (encode (.bI addr payload chk)) State.rawBody s
  | .boot => runFrame (encode (.bI addr payload chk)) State.bootIBody s

/-- `B.W` (R350). In the runtime variant the same bytes are a `RAW` with another command byte (R235). -/
def execBW (addr : Byte) (payload : List Byte) (chk : Byte) (s : State) : Result :=
  match s.variant with
  | .runtime => runFrame (encode (.bW addr payload chk)) State.rawBody s
  | .boot => runBootFrame (encode (.bW addr payload chk)) (fun t => endDispatchOf t.bootWBody) s

/-- `B.R` (R353). In the runtime variant the same bytes are a `RAW` with another command byte (R235). -/
def execBR (addr : Byte) (payload : List Byte) (chk : Byte) (s : State) : Result :=
  match s.variant with
  | .runtime => runFrame (encode (.bR addr payload chk)) State.rawBody s
  | .boot => runFrame (encode (.bR addr payload chk)) State.bootRBody s

end Sys2Proof.Machine
end

