-- ==== Sys2Proof/Machine/Responses.lean ====
section
/-! DEFINITION. The response frames as instructions of the receiver: eaten or dropped, never acted on (42_responses.md
R260 to R266). -/

namespace Sys2Proof.Machine

/-- `PING_R` (R261). -/
def execPingR (addr chk : Byte) (s : State) : Result := runFrame (encode (.pingR addr chk)) State.noEffect s

/-- `SETID_R` (R262). -/
def execSetidR (addr chk : Byte) (s : State) : Result := runFrame (encode (.setidR addr chk)) State.noEffect s

/-- `DATA_R` (R263). -/
def execDataR (addr : Byte) (w0 w1 w2 w3 w4 : Word) (chk : Byte) (s : State) : Result :=
  runFrame (encode (.dataR addr w0 w1 w2 w3 w4 chk)) State.noEffect s

/-- `SENSOR_R` (R264). -/
def execSensorR (addr : Byte) (x y z : Word) (chk : Byte) (s : State) : Result :=
  runFrame (encode (.sensorR addr x y z chk)) State.noEffect s

/-- `RAW_R` (R265). -/
def execRawR (addr chk : Byte) (s : State) : Result := runFrame (encode (.rawR addr chk)) State.noEffect s

/-- `B.Y` on receipt: its status byte is no opcode, it is dropped, and its checksum byte is noise (R266). -/
def execBY (chk : Byte) (s : State) : Result := runFrame (encode (.bY chk)) State.noEffect s

/-- `B.N` on receipt (R266). -/
def execBN (chk : Byte) (s : State) : Result := runFrame (encode (.bN chk)) State.noEffect s

end Sys2Proof.Machine
end

