-- ==== Sys2Proof/Machine/Dispatch.lean ====
section
/-! DEFINITION. The meaning of each instruction, one arm per row of spec/opcode_table.json. -/

namespace Sys2Proof.Machine

def exec (i : Instr) (s : State) : Host.Outcome State Fault Refusal :=
  match i with
  | .reqdata addr chk => Sys2Proof.Machine.execReqdata addr chk s
  | .setv0 addr p chk => Sys2Proof.Machine.execSetv0 addr p chk s
  | .setv1 addr p chk => Sys2Proof.Machine.execSetv1 addr p chk s
  | .ping addr chk => Sys2Proof.Machine.execPing addr chk s
  | .setlimit addr v chk => Sys2Proof.Machine.execSetlimit addr v chk s
  | .setid addr v chk => Sys2Proof.Machine.execSetid addr v chk s
  | .config addr f chk => Sys2Proof.Machine.execConfig addr f chk s
  | .sensor addr v chk => Sys2Proof.Machine.execSensor addr v chk s
  | .raw addr cmd payload chk => Sys2Proof.Machine.execRaw addr cmd payload chk s
  | .pingR addr chk => Sys2Proof.Machine.execPingR addr chk s
  | .setidR addr chk => Sys2Proof.Machine.execSetidR addr chk s
  | .dataR addr w0 w1 w2 w3 w4 chk => Sys2Proof.Machine.execDataR addr w0 w1 w2 w3 w4 chk s
  | .sensorR addr x y z chk => Sys2Proof.Machine.execSensorR addr x y z chk s
  | .rawR addr chk => Sys2Proof.Machine.execRawR addr chk s
  | .bS addr payload chk => Sys2Proof.Machine.execBS addr payload chk s
  | .bI addr payload chk => Sys2Proof.Machine.execBI addr payload chk s
  | .bW addr payload chk => Sys2Proof.Machine.execBW addr payload chk s
  | .bR addr payload chk => Sys2Proof.Machine.execBR addr payload chk s
  | .bY chk => Sys2Proof.Machine.execBY chk s
  | .bN chk => Sys2Proof.Machine.execBN chk s

end Sys2Proof.Machine
end

