-- ==== Sys2Proof/Machine/Service.lean ====
section
/-! DEFINITION. The receiver's step on a service strobe (40_receiver.md R160) and runs of service steps. -/

namespace Sys2Proof.Machine

/-- `Pending`: the dispatch arbiter of the variant (R181). -/
def State.pendingPhase (s : State) : Result :=
  match s.variant with
  | .runtime => .next (s.dispatchRuntime s.opcode).endDispatch
  | .boot =>
    if s.opcode = opRaw then s.dispatchBoot s.requestCommand
    else .next (s.raiseFatal .unknownOpcode).endDispatch

/-- A step of a phase that consumes a byte (R160). A payload byte has a place in `RXBUF`, else the machine has no next
state (log 13). -/
def State.bytePhase (s : State) : Result :=
  match s.rxq with
  | [] => .next s.idle
  | b :: rest =>
    if s.phase = .reading ∧ s.par.rxBufCap ≤ s.count.toNat then .fault .rxBufRange
    else .next ({ s with rxq := rest }.consume b)

/-- One receiver step (R160): none while halted or stopped. -/
def State.serviceStep (s : State) : Result :=
  if s.receiverHalted then .next s
  else match s.phase with
    | .syncing => s.bytePhase
    | .awaiting => s.bytePhase
    | .getAddress => s.bytePhase
    | .reading => s.bytePhase
    | .eating => s.bytePhase
    | .verifying => s.bytePhase
    | .pending => s.pendingPhase
    | .finished => .next s.finishedPhase
    | .error => .next s.errorPhase
    | .illegal _ => .next (s.raiseFatal .illegalState)

/-- `k` service steps one after another with the pins unchanged, each with its own strobes. -/
def State.serviceRun (s : State) : Nat → Result
  | 0 => .next s
  | k + 1 =>
    match s.clearStrobes.serviceStep with
    | .next t => State.serviceRun t k
    | .fault r => .fault r
    | .refused r => .refused r

end Sys2Proof.Machine
end

