-- ==== Sys2Proof/Machine/Turnaround.lean ====
section
/-! DEFINITION. The serial turnaround toggle controller, one definition per state of 43_turnaround.md. -/

namespace Sys2Proof.Machine

/-- `TA_MUTE` (R302). -/
def State.taMute (s : State) : State := { s with re := false, taTimer := s.par.tPre, taState := .pre }

/-- `TA_PRE` (R303). -/
def State.taPre (s : State) : State :=
  if s.taTimer = 0 then { s with de := true, taState := .tx } else { s with de := true, taTimer := s.taTimer - 1 }

/-- The byte at the transmit index: the queued response, then its checksum (R304). -/
def State.txNext (s : State) : Byte := if s.taIdx.toNat < s.txLen.toNat then s.txByte s.taIdx.toNat else s.txChk

/-- `TA_TX` (R304). -/
def State.taTx (s : State) : State :=
  if s.ports.txReady then
    { s with
      txData := s.txNext
      txWrite := true
      taIdx := s.taIdx + 1
      taState := if s.taIdx.toNat + 1 = s.txLen.toNat + 1 then .drain else .tx }
  else s

/-- `TA_DRAIN` (R305). -/
def State.taDrain (s : State) : State :=
  if s.ports.txComplete then { s with taTimer := s.par.tPost, taState := .post } else s

/-- `TA_POST` (R306). -/
def State.taPost (s : State) : State :=
  if s.taTimer = 0 then { s with taState := .rel } else { s with taTimer := s.taTimer - 1 }

/-- `TA_REL` (R307). -/
def State.taRel (s : State) : State := { s with de := false, taTimer := s.par.tTrail, taState := .trail }

/-- `TA_TRAIL` (R308). -/
def State.taTrail (s : State) : State :=
  if s.taTimer = 0 then { s with re := true, txLen := 2, taIdx := 0, taState := .rx }
  else { s with re := true, taTimer := s.taTimer - 1 }

/-- One turnaround step, none while the block is halted (R300, R301). -/
def State.taStep (s : State) : State :=
  if s.fatal then s
  else match s.taState with
    | .rx => s
    | .mute => s.taMute
    | .pre => s.taPre
    | .tx => s.taTx
    | .drain => s.taDrain
    | .post => s.taPost
    | .rel => s.taRel
    | .trail => s.taTrail

/-- A timebase tick: the platform's deferred-reset timeout when `sys_reset_req` is up, and the turnaround step (R300,
R353; log 18). -/
def State.tick (s : State) : State :=
  if s.sysResetReq then
    if s.par.tReset ≤ s.resetTicks + 1 then s.resetSequence
    else { s with resetTicks := s.resetTicks + 1 }.taStep
  else s.taStep

/-- `k` timebase ticks one after another with the pins unchanged, and the bytes written to the UART in them. -/
def State.tickRun (s : State) : Nat → State × List Byte
  | 0 => (s, [])
  | k + 1 =>
    let t := s.clearStrobes.tick
    let r := State.tickRun t k
    (r.1, if t.txWrite then t.txData :: r.2 else r.2)

end Sys2Proof.Machine
end

