-- ==== Sys2Proof/Machine/Fetch.lean ====
section
/-! DEFINITION. What a step does for each input event: the agents' steps, the bus, the fetch of a whole frame from the
receive interface, and reset. -/

namespace Sys2Proof.Machine

/-- The input of the next step and those after it: the scripted ones, then what the environment chooses (R57; log 1). -/
def State.nextInput (s : State) : Input × List Input :=
  match s.inputs with
  | [] => (Config.environment s.clock, [])
  | x :: rest => (x, rest)

/-- The beginning of a step: its pins latched, the strobes low, the step counted. -/
def State.beginStep (s : State) : State :=
  { s.clearStrobes with
    ports := s.nextInput.1.ports
    inputs := s.nextInput.2
    clock := s.clock + 1 }

/-- A byte on the line reaches the receive interface while read is enabled, and is lost otherwise (R56, R313). -/
def State.deliver (s : State) (b : Byte) : State := if s.re then { s with rxq := s.rxq ++ [b] } else s

/-- The frame at the head of the receive interface, when the receiver is at a frame boundary and the frame is there
whole, and the bytes after it (log 2). -/
def State.fetch (s : State) : Option (Instr × List Byte) :=
  if s.ready then
    match decode s.variant s.rxq with
    | .ok r => some r
    | .error _ => none
  else none

/-- Service strobes while a whole frame waits: the frame is executed. Where no frame can be fetched it is one service
step (log 2). -/
def State.burst (s : State) : Result :=
  match s.fetch with
  | some (i, rest) => exec i { s with rxq := rest }
  | none => s.serviceStep

/-- The step of an event. -/
def State.onEvent (s : State) : Event → Result
  | .svc => s.serviceStep
  | .tb => .next s.tick
  | .burst => s.burst
  | .bus b => .next (s.deliver b)
  | .reset torn => .next (s.externalReset torn)

/-- The receive interface holds exactly the instruction of a table word, the receiver is at a frame boundary in the
row's dialect and runs, and the next input is the burst that executes it (log 5). -/
def State.loadFrame (s : State) (nbits w : Nat) : State :=
  { s with
    rxq := tableBytes nbits w
    variant := tableVariant nbits
    phase := .syncing
    halfSynced := false
    fatal := false
    stopped := false
    inputs := ⟨s.ports, .burst⟩ :: s.inputs }

end Sys2Proof.Machine
end

