-- ==== Sys2Proof/Machine/Step.lean ====
section
/-! DEFINITION. One step of the machine, and the placing of a table word where the step fetches. -/

namespace Sys2Proof.Machine

/-- One step: the next input's pins are latched and its agent moves (R13, R57). -/
def step (s : State) : Host.Outcome State Fault Refusal := s.beginStep.onEvent s.nextInput.1.event

/-- The state in which the very next step fetches and runs the instruction of the table's `nbits` bits `w` (log 5). -/
def State.withFetchWord (s : State) (nbits w : Nat) : State := s.loadFrame nbits w

end Sys2Proof.Machine
end

