-- ==== Sys2Proof/Safety.lean ====
section
/-! DEFINITION. What counts as a safe state, in the terms the statements use: the invariants of the machine that the
rules give, each of which a step keeps. -/

namespace Sys2Proof.Machine

/-- Every memory is in canonical form. -/
abbrev State.memoriesWf (s : State) : Prop :=
  Memory.wf (unlisted s.par .rxbuf) s.rxbuf ∧ Memory.wf (unlisted s.par .txbuf) s.txbuf ∧
  Memory.wf (unlisted s.par .nvm) s.nvm ∧ Memory.wf (unlisted s.par .flash) s.flash

/-- The outputs `de` and `re` on entry to a step of each turnaround state (R301 to R309). -/
def State.lineSafe (s : State) : Bool :=
  match s.taState with
  | .rx => !s.de && s.re
  | .mute => !s.de && s.re
  | .pre => !s.re
  | .tx => s.de && !s.re
  | .drain => s.de && !s.re
  | .post => s.de && !s.re
  | .rel => s.de && !s.re
  | .trail => !s.de

/-- The identity and the configuration in the registers are those of the store: there is no second copy (R46, R47,
R436). -/
abbrev State.identityFresh (s : State) : Prop :=
  s.ownId = identityOf s.par s.nvmIdentity ∧ s.cfg = s.nvmConfig

/-- The response buffer begins with the two sync bytes (R84). -/
abbrev State.txSeeded (s : State) : Prop := s.load .txbuf 0 = some sync ∧ s.load .txbuf 1 = some sync

/-- The page cursor is a page boundary within the application area (R50, R88). -/
abbrev State.cursorAligned (s : State) : Prop := s.cursor % s.par.pageSize = 0 ∧ s.cursor ≤ s.par.appLimit

/-- The receiver's registers agree with its phase, and nothing has halted it (R32 to R45, R138, R182, R388). -/
structure State.receiverInv (s : State) : Prop where
  /-- No unencoded phase (R190). -/
  encoded : ∀ n, s.phase ≠ .illegal n
  /-- No fatal halt (R388). -/
  running : s.fatal = false
  /-- The turnaround is idle and no response is queued but in `Finished` (R182, R184, R273). -/
  quiet : s.phase ≠ .finished → s.taState = .rx ∧ s.txLen = 2
  /-- A response has at most 14 bytes before its checksum (R238). -/
  bounded : s.phase = .finished → 2 ≤ s.txLen.toNat ∧ s.txLen.toNat ≤ 14
  /-- `Awaiting` admits only known opcodes (R138, R164). -/
  known : s.phase = .getAddress → isKnown s.variant s.opcode = true
  /-- Only commands of the variant are read, verified and dispatched (R138). -/
  command : s.phase = .reading ∨ s.phase = .verifying ∨ s.phase = .pending →
    isCommand s.opcode = true ∧ isKnown s.variant s.opcode = true
  /-- A payload being read is not complete and fits `RXBUF` (R83, R173). -/
  reading : s.phase = .reading → s.count.toNat < s.expected.toNat ∧ s.expected.toNat ≤ s.par.rxBufCap
  /-- A frame being eaten has bytes left (R174). -/
  eating : s.phase = .eating → s.eat ≠ 0
  /-- A half-seen sync pair exists only in `Syncing` (R34). -/
  halfSync : s.halfSynced = true → s.phase = .syncing
  /-- In `Syncing` the accumulator holds the sync bytes seen (R161, R184). -/
  syncSum : s.phase = .syncing → s.acc = if s.halfSynced then 0xFF else 0
  /-- A stopped receiver stands at a frame boundary (R185). -/
  stoppedIdle : s.stopped = true → s.phase = .syncing
  /-- The timer interrupts are masked only inside a step (R95). -/
  unmasked : s.timerIrqMask = false

end Sys2Proof.Machine
end

