-- ==== Sys2Proof/Certificates/Slice0/Obligations.lean ====
section
/-! DEFINITION. The statements about the model, and the few definitions that only they use. -/

open Sys2Proof Sys2Proof.Machine

/-! ## What the statements share -/

/-- The address, payload and checksum bytes of the eight commands of fixed length, with their opcode (R121, R131). -/
def Sys2Proof.Instr.fixedCommand : Instr → Option (Byte × Byte × List Byte × Byte)
  | .reqdata a c => some (opReqdata, a, [], c)
  | .setv0 a p c => some (opSetv0, a, [p], c)
  | .setv1 a p c => some (opSetv1, a, [p], c)
  | .ping a c => some (opPing, a, [], c)
  | .setlimit a v c => some (opSetlimit, a, [v], c)
  | .setid a v c => some (opSetid, a, [v], c)
  | .config a f c => some (opConfig, a, [f], c)
  | .sensor a v c => some (opSensor, a, [v], c)
  | _ => none

/-- The address, command, payload and checksum bytes of a self-describing frame (R123). -/
def Sys2Proof.Instr.selfFrame : Instr → Option (Byte × Byte × List Byte × Byte)
  | .raw a cmd p c => some (a, cmd, p, c)
  | .bS a p c => some (a, cmdS, p, c)
  | .bI a p c => some (a, cmdI, p, c)
  | .bW a p c => some (a, cmdW, p, c)
  | .bR a p c => some (a, cmdR, p, c)
  | _ => none

/-- The opcode and address of a received response frame (R122, R130). -/
def Sys2Proof.Instr.response : Instr → Option (Byte × Byte)
  | .pingR a _ => some (opPingR, a)
  | .setidR a _ => some (opSetidR, a)
  | .dataR a _ _ _ _ _ _ => some (opDataR, a)
  | .sensorR a _ _ _ _ => some (opSensorR, a)
  | .rawR a _ => some (opRawR, a)
  | _ => none

/-- The payload bytes of a self-describing frame as `RXBUF` holds them: length, command byte, payload (R123). -/
def Sys2Proof.selfPayload (cmd : Byte) (payload : List Byte) : List Byte :=
  BitVec.ofNat 8 payload.length :: cmd :: payload

/-- A frame boundary in a variant: the receiver runs, nothing summed yet, no response queued, room for every response
(R66, R184, R10). -/
abbrev Sys2Proof.Machine.State.atRest (s : State) (v : Variant) : Prop :=
  s.ready = true ∧ s.variant = v ∧ s.acc = 0 ∧ s.txLen = 2 ∧ 14 ≤ s.par.txBufCap

/-- The registers after a whole own-addressed frame and the service step after it: the opcode and address kept, the
payload in `RXBUF` and counted, the watchdog and the strobes cleared, `Finished` next (R164, R168, R169, R171, R181). -/
def Sys2Proof.Machine.State.framed (s : State) (op a : Byte) (payload : List Byte) : State :=
  { s with
    opcode := op
    addr := a
    count := if payload = [] then s.count else BitVec.ofNat 9 payload.length
    expected := if payload = [] then s.expected else BitVec.ofNat 9 payload.length
    rxbuf := s.rxFilled payload
    wdt := 0
    rxPop := false
    txWrite := false
    calls := []
    phase := .finished }

/-- The error counter after one more error (R177). -/
def Sys2Proof.Machine.State.errCountNext (s : State) : Byte := if s.errCount = 255 then 255 else s.errCount + 1

/-- The response queued is, with its checksum, the frame `r chk` for some checksum byte, and its bytes sum to 0 (R272,
R274). -/
def Sys2Proof.Machine.State.queues (t : State) (r : Byte → Instr) : Prop :=
  ∃ chk : Byte, t.txQueued ++ [checksumOf t.txQueued] = encode (r chk) ∧ sumBytes (encode (r chk)) = 0

/-- `t` has halted in a dispatch from `s` whose response did not fit: the strobes issued before the overflow are out, the
buffer is full, the line is in receive mode (R270, R386, R390). -/
abbrev Sys2Proof.Machine.State.overflowed (s t : State) (calls : List Call) : Prop :=
  t.fatal = true ∧ t.fatalCode = .txOverflow ∧ t.de = false ∧ t.re = true ∧ t.taState = .rx ∧ t.phase = .pending ∧
  t.calls = calls ∧ t.txLen.toNat = s.par.txBufCap ∧ t.errCount = s.errCount

/-! ## Encoding -/

/-- Decoding the encoding of a well-formed instruction, in the variant whose dialect it belongs to and whatever bytes
follow, gives the instruction back with every operand (R121 to R124, R131). -/
def Obligations.DecodeOfEncodeGivesInstruction : Prop :=
  ∀ (v : Variant) (i : Instr) (rest : List Byte), i.wellFormed = true → i.inDialect v = true →
    decode v (encode i ++ rest) = .ok (i, rest)

/-- What the decoder accepts is exactly the encoding of what it answers, and what it answers is well formed. -/
def Obligations.DecodedBytesAreTheEncoding : Prop :=
  ∀ (v : Variant) (bytes rest : List Byte) (i : Instr), decode v bytes = .ok (i, rest) →
    i.wellFormed = true ∧ i.inDialect v = true ∧ encode i ++ rest = bytes

/-- Frames written out from 30_encoding.md and the vectors of 95_test_vectors.md decode to what they stand for. -/
def Obligations.SpecFramesDecode : Prop :=
  decode .runtime [0xFF, 0xFF, 0xE0, 0x17, 0x0B] = .ok (.ping 0x17 0x0B, []) ∧
  decode .runtime [0xFF, 0xFF, 0xB1, 0x17, 0x64, 0xD6] = .ok (.setv1 0x17 0x64 0xD6, []) ∧
  decode .runtime [0xFF, 0xFF, 0x55, 0x17, 0x00, 0x53, 0x43] = .ok (.raw 0x17 0x53 [] 0x43, []) ∧
  decode .boot [0xFF, 0xFF, 0x55, 0x17, 0x06, 0x57, 0x0A, 0x00, 0x01, 0x02, 0x03, 0x04, 0x25] =
    .ok (.bW 0x17 [0x0A, 0x00, 0x01, 0x02, 0x03, 0x04] 0x25, []) ∧
  decode .runtime [0xFF, 0xFF, 0x41, 0x17, 0x00, 0x10, 0xFF, 0xF0, 0x12, 0x34, 0x65] =
    .ok (.sensorR 0x17 0x0010 0xFFF0 0x1234 0x65, []) ∧
  decode .boot [0xFF, 0xFF, 0x59, 0xA9] = .ok (.bY 0xA9, [])

/-- A frame is valid exactly when its last byte is 2 less the sum of the bytes from the opcode to the last payload byte
(R125). -/
def Obligations.ChecksumIsTwoMinusSum : Prop :=
  ∀ (body : List Byte) (c : Byte),
    sumBytes ([sync, sync] ++ body ++ [c]) = 0 ↔ c = 2 - sumBytes body

/-! ## The step -/

/-- When the bytes at the receive interface decode, a burst at a frame boundary is `exec` of that instruction, in the
state that the step has begun (pins latched, strobes low, input consumed, step counted) with those bytes taken. The
burst is the model's (log 2). -/
def Obligations.BurstRunsDecodedInstruction : Prop :=
  ∀ (s : State) (p : Ports) (more : List Input) (i : Instr) (rest : List Byte),
    s.inputs = ⟨p, .burst⟩ :: more → s.ready = true → decode s.variant s.rxq = .ok (i, rest) →
    step s = exec i { s.clearStrobes with ports := p, inputs := more, clock := s.clock + 1, rxq := rest }

/-- A service strobe is one receiver step; a tick is one turnaround step and, `T_RESET` ticks after `sys_reset_req`
rose, the platform's reset; a bus byte is delivered only while read is enabled: each in the state that the step has
begun (R56, R160, R300, R353; the count of ticks is the model's, log 18). -/
def Obligations.EventsMoveTheirAgents : Prop :=
  ∀ (s : State) (p : Ports) (more : List Input) (e : Event), s.inputs = ⟨p, e⟩ :: more →
    let b : State := { s.clearStrobes with ports := p, inputs := more, clock := s.clock + 1 }
    (e = .svc → step s = b.serviceStep) ∧
    (e = .tb → s.sysResetReq = false → step s = .next b.taStep) ∧
    (e = .tb → s.sysResetReq = true → s.resetTicks + 1 < s.par.tReset →
      step s = .next { b with resetTicks := s.resetTicks + 1 }.taStep) ∧
    (e = .tb → s.sysResetReq = true → s.par.tReset ≤ s.resetTicks + 1 → step s = .next b.resetSequence) ∧
    (∀ x, e = .bus x → s.re = true → step s = .next { b with rxq := s.rxq ++ [x] }) ∧
    (∀ x, e = .bus x → s.re = false → step s = .next b)

/-- The whole-frame meaning of every instruction is a run of single service steps of the byte-level receiver over the
frame's bytes, at most one more than it has bytes (R2, R160, R187, R189). -/
def Obligations.FrameIsRunOfServiceSteps : Prop :=
  ∀ (s : State) (i : Instr), s.ready = true → i.wellFormed = true → 2 ≤ s.par.rxBufCap →
    ∃ k, k ≤ (encode i).length + 1 ∧ ({ s with rxq := encode i ++ s.rxq }).serviceRun k = exec i s

/-- A frame for a receiver that is not at a frame boundary, or is halted, waits at the receive interface: every
instruction, and nothing else changes. The model's choice (log 3). -/
def Obligations.FrameWaitsForBusyReceiver : Prop :=
  ∀ (s : State) (i : Instr), s.ready = false → exec i s = .next { s with rxq := encode i ++ s.rxq }

/-! ## Runtime commands addressed to this device -/

/-- `REQDATA` disables the drive, zeroes the target power and queues the telemetry response under `own_id` (R221,
R237). -/
def Obligations.ReqdataRepliesWithTelemetry : Prop :=
  ∀ (s : State) (a c : Byte), s.atRest .runtime → a = s.ownByte → checksumValid (.reqdata a c) = true →
    exec (.reqdata a c) s = .next { s.framed opReqdata a [] with
      acc := 0
      calls := [.motorDisable, .setTargetPower 0]
      txbuf := s.txAppended ([opDataR, a] ++ s.telemetryBytes)
      txLen := 14 }

/-- `SETV0` and `SETV1` set the direction of their opcode's low bit and the payload's power, enable the drive and queue
the telemetry response (R222, R223, R237). -/
def Obligations.SetVoltageDrivesAndReplies : Prop :=
  ∀ (s : State) (a p c : Byte), s.atRest .runtime → a = s.ownByte →
    (checksumValid (.setv0 a p c) = true →
      exec (.setv0 a p c) s = .next { s.framed opSetv0 a [p] with
        acc := 0
        calls := [.setTargetDirection false, .setTargetPower p, .motorEnable]
        txbuf := s.txAppended ([opDataR, a] ++ s.telemetryBytes)
        txLen := 14 }) ∧
    (checksumValid (.setv1 a p c) = true →
      exec (.setv1 a p c) s = .next { s.framed opSetv1 a [p] with
        acc := 0
        calls := [.setTargetDirection true, .setTargetPower p, .motorEnable]
        txbuf := s.txAppended ([opDataR, a] ++ s.telemetryBytes)
        txLen := 14 })

/-- `PING` queues its acknowledgement under `own_id` and calls no collaborator (R224). -/
def Obligations.PingAcknowledges : Prop :=
  ∀ (s : State) (a c : Byte), s.atRest .runtime → a = s.ownByte → checksumValid (.ping a c) = true →
    exec (.ping a c) s = .next { s.framed opPing a [] with
      acc := 0
      txbuf := s.txAppended [opPingR, a]
      txLen := 4 }

/-- `SETLIMIT` passes its payload to the motor core and queues nothing (R225). -/
def Obligations.SetlimitHasNoResponse : Prop :=
  ∀ (s : State) (a v c : Byte), s.atRest .runtime → a = s.ownByte → checksumValid (.setlimit a v c) = true →
    exec (.setlimit a v c) s = .next { s.framed opSetlimit a [v] with
      acc := 0
      calls := [.setPowerLimit v] }

/-- `SETID` with a value below 128 writes `0x80 | v` to the identity byte, reloads `own_id` from what the store then
holds (that byte, or the draw of a failing store) and acknowledges under the reloaded identity (R226, R228, R229). -/
def Obligations.SetidStoresAndRereads : Prop :=
  ∀ (s : State) (a v c : Byte), s.atRest .runtime → s.memoriesWf → a = s.ownByte → v.toNat < 128 →
    checksumValid (.setid a v c) = true →
    exec (.setid a v c) s = .next { s.framed opSetid a [v] with
      acc := 0
      nvm := Memory.write (unlisted s.par .nvm) s.nvm s.par.idNvmAddr (s.ports.nvmFault.getD (0x80 ||| v))
      ownId := identityOf s.par (s.ports.nvmFault.getD (0x80 ||| v))
      txbuf := s.txAppended [opSetidR, (identityOf s.par (s.ports.nvmFault.getD (0x80 ||| v))).zeroExtend 8]
      txLen := 4 }

/-- With a store that works, the device answers to the new identity, which is in the store: `SETID` to V, then V is
`own_id` (R226, R228, R229, R436; the premise on the store is R92's). -/
def Obligations.SetidTakesEffect : Prop :=
  ∀ (s t : State) (a v c : Byte), s.atRest .runtime → s.memoriesWf → a = s.ownByte → v.toNat < 128 →
    checksumValid (.setid a v c) = true → s.ports.nvmFault = none → exec (.setid a v c) s = .next t →
    t.ownByte = v ∧ t.nvmIdentity = 0x80 ||| v ∧ t.nvmConfig = s.nvmConfig

/-- `CONFIG` writes its payload to the configuration byte, reloads `cfg` from what the store then holds and queues
nothing (R230, R231). -/
def Obligations.ConfigStoresAndRereads : Prop :=
  ∀ (s : State) (a f c : Byte), s.atRest .runtime → s.memoriesWf → a = s.ownByte →
    checksumValid (.config a f c) = true →
    exec (.config a f c) s = .next { s.framed opConfig a [f] with
      acc := 0
      nvm := Memory.write (unlisted s.par .nvm) s.nvm (s.par.idNvmAddr + 1) (s.ports.nvmFault.getD f)
      cfg := s.ports.nvmFault.getD f }

/-- `SENSOR` queues the three sensor values, high byte first, and restarts the sensor; its payload byte is not
interpreted (R232, R233). -/
def Obligations.SensorRepliesAndRestarts : Prop :=
  ∀ (s : State) (a v c : Byte), s.atRest .runtime → a = s.ownByte → checksumValid (.sensor a v c) = true →
    exec (.sensor a v c) s = .next { s.framed opSensor a [v] with
      acc := 0
      calls := [.sensorRestart]
      txbuf := s.txAppended ([opSensorR, a] ++ s.sensorBytes)
      txLen := 10 }

/-- `RAW` with command byte `'S'` disables the motor, queues `RAW_R` and makes the handoff pending (R234, R236). The
frame fits the receive buffer. -/
def Obligations.RawHandshakeAcknowledges : Prop :=
  ∀ (s : State) (a c : Byte) (payload : List Byte), s.atRest .runtime → a = s.ownByte → payload.length ≤ 255 →
    payload.length + 2 ≤ s.par.rxBufCap → checksumValid (.raw a cmdS payload c) = true →
    exec (.raw a cmdS payload c) s = .next { s.framed opRaw a (selfPayload cmdS payload) with
      acc := 0
      calls := [.motorDisable]
      txbuf := s.txAppended [opRawR, a]
      txLen := 4
      handoffPending := true }

/-- `RAW` with another command byte does nothing more than be received (R235). -/
def Obligations.RawOtherIsIgnored : Prop :=
  ∀ (s : State) (a cmd c : Byte) (payload : List Byte), s.atRest .runtime → a = s.ownByte → cmd ≠ cmdS →
    payload.length ≤ 255 → payload.length + 2 ≤ s.par.rxBufCap → checksumValid (.raw a cmd payload c) = true →
    exec (.raw a cmd payload c) s = .next { s.framed opRaw a (selfPayload cmd payload) with acc := 0 }

/-- In the runtime variant the boot requests' bytes mean what `RAW` with their command byte means: `B.S` is the
handshake (R347), the others are ignored (R235, R394). -/
def Obligations.BootRequestsAreRawInRuntime : Prop :=
  ∀ (s : State) (a c : Byte) (payload : List Byte), s.variant = .runtime →
    exec (.bS a payload c) s = exec (.raw a cmdS payload c) s ∧
    exec (.bI a payload c) s = exec (.raw a cmdI payload c) s ∧
    exec (.bW a payload c) s = exec (.raw a cmdW payload c) s ∧
    exec (.bR a payload c) s = exec (.raw a cmdR payload c) s

/-! ## Frames that are not dispatched -/

/-- Every response frame is eaten whole in either variant, whatever its address and checksum: no error, no response, no
collaborator called, no memory changed (R166, R174, R260 to R265). -/
def Obligations.ResponsesAreEaten : Prop :=
  ∀ (s : State) (i : Instr) (op a : Byte), s.ready = true → i.response = some (op, a) →
    exec i s = .next { s with
      opcode := op
      addr := a
      acc := s.acc + 0xFF + 0xFF + op + a
      eat := 0
      eatDyn := false
      wdt := 0
      rxPop := true
      txWrite := false
      calls := []
      phase := .finished }

/-- A boot device's answer, heard by another device, is dropped at its status byte without error; its checksum byte
stays on the line for `Syncing` (R165, R266). In general a service step of `Awaiting` that finds a byte outside `KNOWN`
of the variant keeps it in `opcode` and goes to `Finished`, and nothing is counted (R136, R165). -/
def Obligations.BootAnswersAreDropped : Prop :=
  (∀ (s : State) (c : Byte), s.ready = true →
    exec (.bY c) s = .next { s with
      opcode := statusY
      acc := s.acc + 0xFF + 0xFF
      wdt := 0
      rxPop := true
      txWrite := false
      calls := []
      phase := .finished
      rxq := c :: s.rxq } ∧
    exec (.bN c) s = .next { s with
      opcode := statusN
      acc := s.acc + 0xFF + 0xFF
      wdt := 0
      rxPop := true
      txWrite := false
      calls := []
      phase := .finished
      rxq := c :: s.rxq }) ∧
  (∀ (s : State) (b : Byte) (rest : List Byte), s.receiverHalted = false → s.phase = .awaiting →
    isKnown s.variant b = false → s.rxq = b :: rest →
    s.serviceStep = .next { s with
      opcode := b
      wdt := 0
      rxPop := true
      phase := .finished
      rxq := rest })

/-- A fixed-length command for another device is eaten whole: no error, no response, no checksum test (R170, R174,
R186). -/
def Obligations.ForeignCommandsAreEaten : Prop :=
  ∀ (s : State) (i : Instr) (op a c : Byte) (p : List Byte), s.ready = true → s.variant = .runtime →
    i.fixedCommand = some (op, a, p, c) → a.toNat ≤ 127 → a ≠ s.ownByte →
    exec i s = .next { s with
      opcode := op
      addr := a
      acc := s.acc + 0xFF + 0xFF + op
      eat := 0
      eatDyn := false
      wdt := 0
      rxPop := true
      txWrite := false
      calls := []
      phase := .finished }

/-- A self-describing frame for another device is eaten whole by its own length, in either variant; the receive
buffer's size does not limit it (R170, R175). -/
def Obligations.ForeignSelfFramesAreEaten : Prop :=
  ∀ (s : State) (i : Instr) (a cmd c : Byte) (p : List Byte), s.ready = true → i.wellFormed = true →
    i.selfFrame = some (a, cmd, p, c) → a.toNat ≤ 127 → a ≠ s.ownByte →
    exec i s = .next { s with
      opcode := opRaw
      addr := a
      acc := s.acc + 0xFF + 0xFF + opRaw
      eat := 0
      eatDyn := false
      wdt := 0
      rxPop := true
      txWrite := false
      calls := []
      phase := .finished }

/-- A command whose address byte is 128 or more is the framing error `ADDR_RANGE`: counted, no response, the rest of
the frame left on the line (R167, R177, R188). -/
def Obligations.AddressOutOfRangeIsCounted : Prop :=
  (∀ (s : State) (i : Instr) (op a c : Byte) (p : List Byte), s.ready = true → s.variant = .runtime →
    i.fixedCommand = some (op, a, p, c) → 127 < a.toNat →
    exec i s = .next { s with
      opcode := op
      addr := a
      acc := s.acc + 0xFF + 0xFF + op
      wdt := 0
      rxPop := false
      txWrite := false
      calls := []
      lastCause := .addrRange
      errCount := s.errCountNext
      txLen := 2
      phase := .finished
      rxq := p ++ [c] ++ s.rxq }) ∧
  (∀ (s : State) (i : Instr) (a cmd c : Byte) (p : List Byte), s.ready = true →
    i.selfFrame = some (a, cmd, p, c) → 127 < a.toNat →
    exec i s = .next { s with
      opcode := opRaw
      addr := a
      acc := s.acc + 0xFF + 0xFF + opRaw
      wdt := 0
      rxPop := false
      txWrite := false
      calls := []
      lastCause := .addrRange
      errCount := s.errCountNext
      txLen := 2
      phase := .finished
      rxq := selfPayload cmd p ++ [c] ++ s.rxq })

/-- An own-addressed command with a bad checksum is the framing error `BAD_CHECKSUM`: counted, no dispatch, no
response, `acc` holds the nonzero sum; it comes before the identity range test. A command of fixed length in the runtime
variant, and a self-describing frame that fits the receive buffer in either (R176, R177, R344, R355, R389). -/
def Obligations.BadChecksumIsCounted : Prop :=
  (∀ (s : State) (i : Instr) (op a c : Byte) (p : List Byte), s.ready = true → s.variant = .runtime → s.acc = 0 →
    i.fixedCommand = some (op, a, p, c) → a = s.ownByte → checksumValid i = false →
    exec i s = .next { s.framed op a p with
      acc := sumBytes (encode i)
      lastCause := .badChecksum
      errCount := s.errCountNext
      txLen := 2 }) ∧
  (∀ (s : State) (i : Instr) (a cmd c : Byte) (p : List Byte), s.ready = true → s.acc = 0 → i.wellFormed = true →
    i.selfFrame = some (a, cmd, p, c) → a = s.ownByte → p.length + 2 ≤ s.par.rxBufCap → checksumValid i = false →
    exec i s = .next { s.framed opRaw a (selfPayload cmd p) with
      acc := sumBytes (encode i)
      lastCause := .badChecksum
      errCount := s.errCountNext
      txLen := 2 })

/-- `SETID` with a value of 128 or more and a good checksum is the framing error `ID_RANGE`: counted, the store and the
identity unchanged (R176, R227). -/
def Obligations.IdentityOutOfRangeIsCounted : Prop :=
  ∀ (s : State) (a v c : Byte), s.ready = true → s.variant = .runtime → s.acc = 0 → a = s.ownByte →
    128 ≤ v.toNat → checksumValid (.setid a v c) = true →
    exec (.setid a v c) s = .next { s.framed opSetid a [v] with
      acc := 0
      lastCause := .idRange
      errCount := s.errCountNext
      txLen := 2 }

/-- An own-addressed self-describing frame too long for the receive buffer is the framing error `LEN_RANGE` at its
length byte, in either variant; the rest of the frame stays on the line (R172, R188). -/
def Obligations.LengthOutOfRangeIsCounted : Prop :=
  ∀ (s : State) (i : Instr) (a cmd c : Byte) (p : List Byte), s.ready = true → i.wellFormed = true →
    i.selfFrame = some (a, cmd, p, c) → a = s.ownByte → s.par.rxBufCap < p.length + 2 →
    exec i s = .next { s.framed opRaw a [BitVec.ofNat 8 p.length] with
      acc := s.acc + 0xFF + 0xFF + opRaw + a + BitVec.ofNat 8 p.length
      lastCause := .lenRange
      errCount := s.errCountNext
      txLen := 2
      rxq := cmd :: p ++ [c] ++ s.rxq }

/-- In the boot variant the runtime commands' opcodes are unknown: the frame is dropped at its opcode byte without
error, and the rest stays on the line (R165, R341). -/
def Obligations.RuntimeCommandsAreDroppedInBoot : Prop :=
  ∀ (s : State) (i : Instr) (op a c : Byte) (p : List Byte), s.ready = true → s.variant = .boot →
    i.fixedCommand = some (op, a, p, c) →
    exec i s = .next { s with
      opcode := op
      acc := s.acc + 0xFF + 0xFF
      wdt := 0
      rxPop := true
      txWrite := false
      calls := []
      phase := .finished
      rxq := a :: p ++ [c] ++ s.rxq }

/-! ## Boot requests addressed to this device -/

/-- `B.S` is answered `'Y'` (R345, R347). -/
def Obligations.BootProbeAnswersYes : Prop :=
  ∀ (s : State) (a c : Byte) (p : List Byte), s.atRest .boot → a = s.ownByte → p.length ≤ 255 →
    p.length + 2 ≤ s.par.rxBufCap → checksumValid (.bS a p c) = true →
    exec (.bS a p c) s = .next { s.framed opRaw a (selfPayload cmdS p) with
      acc := 0
      txbuf := s.txAppended [statusY]
      txLen := 3 }

/-- `B.I` is answered `'Y'` when the three signature bytes match the expected ones in order, else `'N'` (R348). -/
def Obligations.BootSignatureCheckAnswers : Prop :=
  ∀ (s : State) (a c : Byte) (p : List Byte), s.atRest .boot → a = s.ownByte → p.length ≤ 255 →
    p.length + 2 ≤ s.par.rxBufCap → checksumValid (.bI a p c) = true →
    exec (.bI a p c) s = .next { s.framed opRaw a (selfPayload cmdI p) with
      acc := 0
      txbuf := s.txAppended [if s.ports.sigIn = s.par.sigExpected then statusY else statusN]
      txLen := 3 }

/-- `B.R` makes the reset pending and is answered `'Y'` (R353). -/
def Obligations.BootResetIsDeferred : Prop :=
  ∀ (s : State) (a c : Byte) (p : List Byte), s.atRest .boot → a = s.ownByte → p.length ≤ 255 →
    p.length + 2 ≤ s.par.rxBufCap → checksumValid (.bR a p c) = true →
    exec (.bR a p c) s = .next { s.framed opRaw a (selfPayload cmdR p) with
      acc := 0
      resetPending := true
      txbuf := s.txAppended [statusY]
      txLen := 3 }

/-- Any other command byte is answered `'N'` with no other effect (R354). -/
def Obligations.BootOtherCommandAnswersNo : Prop :=
  ∀ (s : State) (a cmd c : Byte) (p : List Byte), s.atRest .boot → a = s.ownByte → p.length ≤ 255 →
    p.length + 2 ≤ s.par.rxBufCap → (Instr.raw a cmd p c).inDialect .boot = true →
    checksumValid (.raw a cmd p c) = true →
    exec (.raw a cmd p c) s = .next { s.framed opRaw a (selfPayload cmd p) with
      acc := 0
      txbuf := s.txAppended [statusN]
      txLen := 3 }

/-- A `W` whose length and page checksum are right, with the page inside the application area, writes the page at the
cursor with the strobes in order, advances the cursor by one page and is answered `'Y'` (R95, R350, R351, R352). -/
def Obligations.BootWriteProgramsPage : Prop :=
  ∀ (s : State) (a lo hi c : Byte) (page : List Byte), s.atRest .boot → a = s.ownByte →
    page.length = s.par.pageSize → s.par.pageSize ≤ 253 → s.par.pageSize + 4 ≤ s.par.rxBufCap →
    sumNat page = lo.toNat + 256 * hi.toNat →
    s.cursor < s.par.appLimit → s.cursor + s.par.pageSize < 2 ^ s.par.flashAddrW →
    checksumValid (.bW a (lo :: hi :: page) c) = true →
    exec (.bW a (lo :: hi :: page) c) s = .next { s.framed opRaw a (selfPayload cmdW (lo :: hi :: page)) with
      acc := 0
      flash := Memory.writeBytes (unlisted s.par .flash) s.flash s.cursor page
      cursor := s.cursor + s.par.pageSize
      timerIrqMask := false
      calls := [.timerIrqMask true, .flashErase s.cursor, .flashFill page, .flashCommit s.cursor, .flashWait,
        .flashResume, .timerIrqMask false]
      txbuf := s.txAppended [statusY]
      txLen := 3 }

/-- The write completes up to the last page of the flash: its bytes are in the flash at the cursor, every other flash
byte is as before, and the cursor is past the page (R95, R352; that it is so at the top of the flash too, where the sum
does not fit `FLASH_ADDR_W` bits, is the model's reading, log 11). -/
def Obligations.BootWriteChangesOnlyItsPage : Prop :=
  ∀ (s : State) (a lo hi c : Byte) (page : List Byte), s.atRest .boot → s.memoriesWf → a = s.ownByte →
    page.length = s.par.pageSize → s.par.pageSize ≤ 253 → s.par.pageSize + 4 ≤ s.par.rxBufCap →
    sumNat page = lo.toNat + 256 * hi.toNat →
    s.cursor < s.par.appLimit → s.cursor + s.par.pageSize ≤ 2 ^ s.par.flashAddrW →
    checksumValid (.bW a (lo :: hi :: page) c) = true →
    ∃ t : State, exec (.bW a (lo :: hi :: page) c) s = .next t ∧
      (∀ (n : Nat) (h : n < page.length), t.load .flash (s.cursor + n) = some page[n]) ∧
      (∀ n : Nat, n < s.cursor ∨ s.cursor + s.par.pageSize ≤ n → t.load .flash n = s.load .flash n) ∧
      t.cursor = s.cursor + s.par.pageSize

/-- A `W` with a wrong length, or with the right length and a wrong page checksum, is answered `'N'`: no page write, the
cursor and the flash unchanged, whatever the cursor is (R351). -/
def Obligations.BootWriteRejectsBadPage : Prop :=
  ∀ (s : State) (a c : Byte) (p : List Byte), s.atRest .boot → a = s.ownByte → p.length ≤ 255 →
    p.length + 2 ≤ s.par.rxBufCap → checksumValid (.bW a p c) = true →
    (p.length ≠ s.par.pageSize + 2 ∨
      ∃ (lo hi : Byte) (page : List Byte), p = lo :: hi :: page ∧ page.length = s.par.pageSize ∧
        sumNat page ≠ lo.toNat + 256 * hi.toNat) →
    exec (.bW a p c) s = .next { s.framed opRaw a (selfPayload cmdW p) with
      acc := 0
      txbuf := s.txAppended [statusN]
      txLen := 3 }

/-- A `W` that passes its checks with the cursor at or above `APP_LIMIT` has no next state (R356). -/
def Obligations.BootWriteBeyondLimitFaults : Prop :=
  ∀ (s : State) (a lo hi c : Byte) (page : List Byte), s.atRest .boot → a = s.ownByte →
    page.length = s.par.pageSize → s.par.pageSize ≤ 253 → s.par.pageSize + 4 ≤ s.par.rxBufCap →
    sumNat page = lo.toNat + 256 * hi.toNat → s.par.appLimit ≤ s.cursor →
    checksumValid (.bW a (lo :: hi :: page) c) = true →
    exec (.bW a (lo :: hi :: page) c) s = .fault .pageBeyondLimit

/-! ## Frames of the whole instruction set -/

/-- Only `SETID` writes the identity byte of the store and only `CONFIG` the configuration byte; no instruction writes
any other NVM byte, changes the parameters or the variant, or clears a halt (R54, R90, R228, R230, R394). -/
def Obligations.InstructionsKeepTheStore : Prop :=
  ∀ (s t : State) (i : Instr), exec i s = .next t →
    t.par = s.par ∧ t.variant = s.variant ∧ (s.fatal = true → t.fatal = true) ∧
    ∀ n : Nat,
      (n = s.par.idNvmAddr → ∀ a v c, i ≠ .setid a v c) → (n = s.par.idNvmAddr + 1 → ∀ a f c, i ≠ .config a f c) →
      t.load .nvm n = s.load .nvm n

/-- The flash and the page cursor are changed in the boot variant alone, only by `B.W` and by `RAW` (whose bytes may be
those of a `B.W`), and in the flash only within the page at the cursor (R54, R93, R359). -/
def Obligations.InstructionsKeepTheFlash : Prop :=
  ∀ (s t : State) (i : Instr), exec i s = .next t →
    (s.variant = .runtime → t.flash = s.flash ∧ t.cursor = s.cursor) ∧
    ((∀ a p c, i ≠ .bW a p c) → (∀ a cmd p c, i ≠ .raw a cmd p c) → t.flash = s.flash ∧ t.cursor = s.cursor) ∧
    (∀ n : Nat, n < s.cursor ∨ s.cursor + s.par.pageSize ≤ n → t.load .flash n = s.load .flash n)

/-- No instruction changes the turnaround registers or the line outputs unless it halts the block (R54, R312). -/
def Obligations.InstructionsKeepTheLine : Prop :=
  ∀ (s t : State) (i : Instr), exec i s = .next t → t.fatal = s.fatal →
    t.taState = s.taState ∧ t.taTimer = s.taTimer ∧ t.taIdx = s.taIdx ∧ t.de = s.de ∧ t.re = s.re ∧
    t.txChk = s.txChk ∧ t.txData = s.txData ∧ t.stopped = s.stopped ∧ t.bootHandoff = s.bootHandoff ∧
    t.sysResetReq = s.sysResetReq

/-! ## The byte-level receiver -/

/-- A step that finds no byte: in the phases that wait for a byte inside a frame the watchdog counts, and at `WDT_LIMIT`
raises `INACTIVITY`; in `Syncing` nothing changes, half-synced or not (R179, R180). -/
def Obligations.WatchdogAbortsSilentFrame : Prop :=
  ∀ s : State, s.receiverHalted = false → s.rxq = [] →
    (s.phase = .syncing → s.serviceStep = .next s) ∧
    (s.phase.consumes = true → s.phase ≠ .syncing → s.wdt + 1 = s.par.wdtLimit →
      s.serviceStep = .next { s with wdt := s.wdt + 1, lastCause := .inactivity, phase := .error }) ∧
    (s.phase.consumes = true → s.phase ≠ .syncing → s.wdt + 1 ≠ s.par.wdtLimit →
      s.serviceStep = .next { s with wdt := s.wdt + 1 })

/-- `Error` counts, saturating at 255, and drops a queued response; two steps after a framing error the receiver is in
`Syncing` again, the strobes of the step that raised it low (R177, R385). -/
def Obligations.ErrorCountsAndRecovers : Prop :=
  ∀ s : State, s.receiverHalted = false → s.phase = .error → s.taState = .rx → s.handoffPending = false →
    s.resetPending = false →
    s.serviceRun 2 = .next { s with
      errCount := if s.errCount = 255 then 255 else s.errCount + 1
      txLen := 2
      acc := 0
      count := 0
      expected := 0
      eat := 0
      eatDyn := false
      opcode := 0x00
      addr := 0x00
      halfSynced := false
      wdt := 0
      rxPop := false
      txWrite := false
      calls := []
      phase := .syncing }

/-- `Finished` holds while a flush runs, starts the flush of a queued response with its checksum, and otherwise ends
the message, making the deferred transfers (R182, R183, R184, R185, R272). -/
def Obligations.FinishedFlushesThenEnds : Prop :=
  ∀ s : State, s.receiverHalted = false → s.phase = .finished →
    (s.taState ≠ .rx → s.serviceStep = .next s) ∧
    (s.taState = .rx → 2 < s.txLen.toNat →
      s.serviceStep = .next { s with txChk := 0 - sumBytes s.txQueued, taIdx := 0, taState := .mute }) ∧
    (s.taState = .rx → s.txLen = 2 →
      s.serviceStep = .next { s with
        acc := 0
        count := 0
        expected := 0
        eat := 0
        eatDyn := false
        opcode := 0x00
        addr := 0x00
        halfSynced := false
        wdt := 0
        bootHandoff := s.bootHandoff || s.handoffPending
        sysResetReq := s.sysResetReq || s.resetPending
        stopped := s.stopped || s.handoffPending || s.resetPending
        phase := .syncing })

/-- Noise in `Syncing` is discarded in two steps without an error (R163, R184, R189). -/
def Obligations.NoiseIsDiscarded : Prop :=
  ∀ (s : State) (b : Byte) (rest : List Byte), s.receiverHalted = false → s.phase = .syncing → b ≠ sync →
    s.rxq = b :: rest → s.taState = .rx → s.txLen = 2 → s.handoffPending = false → s.resetPending = false →
    ∃ t : State, s.serviceRun 2 = .next t ∧ t.ready = true ∧ t.acc = 0 ∧ t.rxq = rest ∧ t.errCount = s.errCount ∧
      t.lastCause = s.lastCause ∧ t.txLen = 2 ∧ t.ownId = s.ownId ∧ t.nvm = s.nvm ∧ t.flash = s.flash

/-- Stray sync bytes in multiples of three leave the receiver at a frame boundary: after 3k of them the next frame is
received (R192). -/
def Obligations.StraySyncTriplesAreHarmless : Prop :=
  ∀ (s : State) (k : Nat) (rest : List Byte), s.ready = true → s.acc = 0 → s.taState = .rx → s.txLen = 2 →
    s.handoffPending = false → s.resetPending = false → s.rxq = List.replicate (3 * k) sync ++ rest →
    ∃ t : State, s.serviceRun (4 * k) = .next t ∧ t.ready = true ∧ t.acc = 0 ∧ t.rxq = rest ∧
      t.errCount = s.errCount ∧ t.variant = s.variant ∧ t.ownId = s.ownId ∧ t.txLen = 2 ∧ t.par = s.par

/-! ## The response on the line -/

/-- A flush started in `TA_MUTE` transmits the queued bytes and then the checksum, whole and in order, and comes back to
receive mode with the buffer empty, in `T_PRE + T_POST + T_TRAIL + n + 6` ticks of a UART that is always ready (R84,
R85, R302 to R308, R314). -/
def Obligations.FlushTransmitsWholeResponse : Prop :=
  ∀ s : State, s.fatal = false → s.sysResetReq = false → s.taState = .mute → s.taIdx = 0 → s.txLen.toNat < 511 →
    s.ports.txReady = true → s.ports.txComplete = true →
    s.tickRun (s.par.tPre.toNat + s.par.tPost.toNat + s.par.tTrail.toNat + (s.txLen.toNat + 1) + 6) =
      ({ s with
          taState := .rx
          taTimer := 0
          taIdx := 0
          de := false
          re := true
          txLen := 2
          txData := s.txChk
          rxPop := false
          txWrite := false
          calls := [] },
        s.txQueued ++ [s.txChk])

/-- What every answering command queues is, with its checksum, the encoding of the response frame that answers it, under
this device's identity, and its bytes sum to 0: `DATA_R` for `REQDATA`, `SETV0` and `SETV1`, `PING_R`, `SETID_R` (under
the identity read back), `SENSOR_R`, `RAW_R` for the handshake, and in the boot variant `'Y'` or `'N'` for every request
that has a next state (R224, R229, R233, R236, R237, R274, R346). -/
def Obligations.RepliesAreResponseFrames : Prop :=
  (∀ (s t : State) (i : Instr) (a c : Byte), s.atRest .runtime → s.memoriesWf → s.txSeeded → a = s.ownByte →
    checksumValid i = true → exec i s = .next t →
    (i = .reqdata a c ∨ (∃ p, i = .setv0 a p c ∨ i = .setv1 a p c) →
      t.queues (.dataR a s.ports.pos s.ports.cur s.ports.vel s.ports.vsup s.ports.temp)) ∧
    (i = .ping a c → t.queues (.pingR a)) ∧
    (∀ v, i = .setid a v c → v.toNat < 128 → t.queues (.setidR t.ownByte)) ∧
    (∀ v, i = .sensor a v c → t.queues (.sensorR a s.ports.sensorX s.ports.sensorY s.ports.sensorZ)) ∧
    (∀ p, i = .raw a cmdS p c → p.length ≤ 255 → p.length + 2 ≤ s.par.rxBufCap → t.queues (.rawR a))) ∧
  (∀ (s t : State) (i : Instr) (a cmd c : Byte) (p : List Byte), s.atRest .boot → s.memoriesWf → s.txSeeded →
    a = s.ownByte → i.wellFormed = true → i.selfFrame = some (a, cmd, p, c) → p.length + 2 ≤ s.par.rxBufCap →
    checksumValid i = true → exec i s = .next t → t.queues .bY ∨ t.queues .bN)

/-- A UART that never reports completion leaves the controller in `TA_DRAIN`, one that is never ready leaves it in
`TA_TX`, and the receiver in `Finished`: ticks and service steps only lower the strobes of the step before (R182, R191,
R304, R305). -/
def Obligations.DrainHangsWithoutCompletion : Prop :=
  ∀ (s : State) (k : Nat), s.fatal = false → s.stopped = false → s.sysResetReq = false → s.phase = .finished →
    s.taState = .drain ∧ s.ports.txComplete = false ∨ s.taState = .tx ∧ s.ports.txReady = false →
    s.tickRun (k + 1) = (s.clearStrobes, []) ∧ s.serviceRun (k + 1) = .next s.clearStrobes

/-! ## Halts and reset -/

/-- A halted block takes no service step, no turnaround step and no frame; a stopped receiver takes no service step and
no frame, also while the platform's reset is awaited, and the turnaround controller still steps (R160, R300, R353, R386,
R400). The ticks of a block whose reset is requested are in `EventsMoveTheirAgents`. -/
def Obligations.FatalBlockStands : Prop :=
  ∀ (s : State) (p : Ports) (more : List Input) (e : Event), s.inputs = ⟨p, e⟩ :: more →
    let b : State := { s.clearStrobes with ports := p, inputs := more, clock := s.clock + 1 }
    (s.fatal = true ∨ s.stopped = true → e = .svc ∨ e = .burst → step s = .next b) ∧
    (s.fatal = true → s.sysResetReq = false → e = .tb → step s = .next b) ∧
    (s.stopped = true → s.sysResetReq = false → e = .tb → step s = .next b.taStep)

/-- A step in an unencoded phase, and a dispatch of an opcode outside the variant's command set, halt the block with the
line in receive mode: no collaborator is called and no error counted; every other register keeps its value (R181, R190,
R386, R387, R390). -/
def Obligations.FatalCausesHalt : Prop :=
  ∀ s : State, s.receiverHalted = false →
    (∀ n, s.phase = .illegal n → s.serviceStep = .next { s with
      fatal := true
      fatalCode := .illegalState
      de := false
      re := true
      taState := .rx }) ∧
    (s.phase = .pending →
      (s.variant = .runtime ∧ isCommand s.opcode = false) ∨ (s.variant = .boot ∧ s.opcode ≠ opRaw) →
      s.serviceStep = .next { s with
        fatal := true
        fatalCode := .unknownOpcode
        de := false
        re := true
        taState := .rx })

/-- A response buffer too small for the telemetry response halts the block in the dispatch of `REQDATA`, `SETV0` and
`SETV1`: the motor strobes before the overflow are out, nothing after it happens, the line is in receive mode (R237,
R270, R386, R390). -/
def Obligations.TelemetryOverflowHalts : Prop :=
  ∀ (s : State) (a p c : Byte), s.ready = true → s.variant = .runtime → s.acc = 0 → s.txLen = 2 → a = s.ownByte →
    2 ≤ s.par.txBufCap → s.par.txBufCap < 14 →
    (checksumValid (.reqdata a c) = true →
      ∃ t, exec (.reqdata a c) s = .next t ∧ s.overflowed t [.motorDisable, .setTargetPower 0]) ∧
    (checksumValid (.setv0 a p c) = true →
      ∃ t, exec (.setv0 a p c) s = .next t ∧
        s.overflowed t [.setTargetDirection false, .setTargetPower p, .motorEnable]) ∧
    (checksumValid (.setv1 a p c) = true →
      ∃ t, exec (.setv1 a p c) s = .next t ∧
        s.overflowed t [.setTargetDirection true, .setTargetPower p, .motorEnable])

/-- A reset, whatever the state: the strap latched, the registers at the values the spec gives, every strobe low, identity
and configuration loaded from the store, the store and the flash kept (R66, R430, R431, R434). A reset that cuts into a page
write puts any bytes into the page at the cursor and keeps every other flash byte (R435; that event, and that no byte
outside the page changes, are the model's, log 19). -/
def Obligations.ResetLoadsAndClears : Prop :=
  ∀ (s : State) (p : Ports) (more : List Input) (torn : Option (List Byte)), s.inputs = ⟨p, .reset torn⟩ :: more →
    let due := ({ s.clearStrobes with ports := p, inputs := more, clock := s.clock + 1 } : State).pageWriteDue
    ∃ t : State, step s = .next t ∧ t.variant = p.strap ∧ t.phase = .syncing ∧ t.halfSynced = false ∧
      t.opcode = 0 ∧ t.addr = 0 ∧ t.count = 0 ∧ t.expected = 0 ∧ t.eat = 0 ∧ t.eatDyn = false ∧ t.acc = 0 ∧
      t.wdt = 0 ∧ t.errCount = 0 ∧ t.lastCause = .none ∧ t.fatal = false ∧ t.fatalCode = .none ∧
      t.ownId = identityOf s.par s.nvmIdentity ∧ t.cfg = s.nvmConfig ∧ t.handoffPending = false ∧
      t.stopped = false ∧ t.resetPending = false ∧ t.cursor = 0 ∧ t.taState = .rx ∧ t.taTimer = 0 ∧ t.taIdx = 0 ∧
      t.de = false ∧ t.re = true ∧ t.txLen = 2 ∧ t.txByte 0 = sync ∧ t.txByte 1 = sync ∧ t.txChk = 0 ∧
      t.bootHandoff = false ∧ t.sysResetReq = false ∧ t.timerIrqMask = false ∧ t.rxPop = false ∧ t.txWrite = false ∧
      t.calls = [] ∧ t.nvm = s.nvm ∧
      (torn = none ∨ due = false → t.flash = s.flash) ∧
      (∀ n : Nat, n < s.cursor ∨ s.cursor + s.par.pageSize ≤ n → t.load .flash n = s.load .flash n) ∧
      (∀ page : List Byte, torn = some page → due = true → s.memoriesWf →
        ∀ (n : Nat) (h : n < page.length), n < s.par.pageSize → t.load .flash (s.cursor + n) = some page[n])

/-! ## Invariants that every step keeps -/

/-- The state after reset has canonical memories, the sync bytes in the response buffer, a safe line, a fresh identity,
an aligned cursor, agreeing receiver registers, and parameters legal for the variant it runs (R10, R66, R84, R309, R388,
R436; that they are legal for the strap at power-up alone is the model's choice, log 6). -/
def Obligations.ResetIsSafe : Prop :=
  State.reset.memoriesWf ∧ State.reset.txSeeded ∧ State.reset.lineSafe = true ∧ State.reset.identityFresh ∧
  State.reset.cursorAligned ∧ State.reset.receiverInv ∧ State.reset.par.Legal State.reset.variant

/-- Every step keeps every memory in canonical form. -/
def Obligations.StepKeepsMemoriesCanonical : Prop :=
  ∀ s t : State, s.memoriesWf → step s = .next t → t.memoriesWf

/-- Every step keeps drive and read apart: `de = 1` implies `re = 0` (R309). -/
def Obligations.StepKeepsLineSafe : Prop :=
  ∀ s t : State, s.lineSafe = true → step s = .next t → t.lineSafe = true ∧ (t.de = true → t.re = false)

/-- Every step keeps the identity and the configuration in the registers equal to those of the store (R46, R47,
R436). Where the store fails in the step, that it keeps the byte which the re-read returned is the model's choice
(log 8): the spec makes only the re-read a draw (R92). -/
def Obligations.StepKeepsIdentityFresh : Prop :=
  ∀ s t : State, s.memoriesWf → s.identityFresh → step s = .next t → t.identityFresh

/-- Every step keeps the receiver's registers in agreement, and with legal buffer capacities no step halts the block
(R138, R182, R388); beside it every step keeps the two sync bytes of the response buffer (R84). -/
def Obligations.StepKeepsReceiverInv : Prop :=
  ∀ s t : State, 2 ≤ s.par.rxBufCap → 14 ≤ s.par.txBufCap → s.receiverInv → step s = .next t →
    t.receiverInv ∧ (s.txSeeded → t.txSeeded)

/-- With legal buffer capacities the only step without a successor is a page write at or beyond `APP_LIMIT`, or one past
the end of the flash; a page write past the end of the flash is that one, and with the flash parameters of R10 and the
cursor on a page boundary it does not happen. No step at all is refused (R80, R83, R345, R356; the fault past the end of
the flash is the model's own, log 13). -/
def Obligations.OnlyPageWriteFaults : Prop :=
  (∀ (s : State) (r : Fault), 2 ≤ s.par.rxBufCap → s.receiverInv → step s = .fault r →
    s.variant = .boot ∧ (r = .pageBeyondLimit ∧ s.par.appLimit ≤ s.cursor ∨
      r = .flashRange ∧ s.cursor < s.par.appLimit ∧ 2 ^ s.par.flashAddrW < s.cursor + s.par.pageSize)) ∧
  (∀ (s : State) (r : Fault), 2 ≤ s.par.rxBufCap → s.receiverInv → s.par.appLimit % s.par.pageSize = 0 →
    s.par.appLimit ≤ 2 ^ s.par.flashAddrW → s.cursorAligned → step s = .fault r →
    r = .pageBeyondLimit ∧ s.cursor = s.par.appLimit) ∧
  (∀ (s : State) (r : Refusal), step s ≠ .refused r) ∧
  (∀ (s : State) (a lo hi c : Byte) (page : List Byte), s.atRest .boot → a = s.ownByte →
    page.length = s.par.pageSize → s.par.pageSize ≤ 253 → s.par.pageSize + 4 ≤ s.par.rxBufCap →
    sumNat page = lo.toNat + 256 * hi.toNat → s.cursor < s.par.appLimit →
    2 ^ s.par.flashAddrW < s.cursor + s.par.pageSize → checksumValid (.bW a (lo :: hi :: page) c) = true →
    exec (.bW a (lo :: hi :: page) c) s = .fault .flashRange)

/-- Every step keeps the page cursor a page boundary within the application area, up to and with its end, whatever the
width of the cursor (R50, R88, R352; the end `2 ^ FLASH_ADDR_W` itself: log 11). -/
def Obligations.StepKeepsCursorAligned : Prop :=
  ∀ s t : State, s.par.appLimit % s.par.pageSize = 0 → s.cursorAligned → step s = .next t → t.cursorAligned

/-- In the boot variant no step writes the store or issues a motor or sensor strobe (R359). -/
def Obligations.BootVariantDrivesNoMotor : Prop :=
  ∀ (s t : State), s.variant = .boot → step s = .next t →
    t.nvm = s.nvm ∧ ∀ c ∈ t.calls, c ∉ [Call.motorEnable, .motorDisable, .sensorRestart] ∧
      (∀ v, c ≠ .setTargetPower v) ∧ (∀ d, c ≠ .setTargetDirection d) ∧ (∀ v, c ≠ .setPowerLimit v)

/-- But for a reset, which an event or the tick that completes `T_RESET` makes, a step leaves the error counter as it is
or counts one error; it never falls (R43, R177, R353). -/
def Obligations.ErrorCountNeverFalls : Prop :=
  ∀ (s t : State) (p : Ports) (more : List Input) (e : Event), s.inputs = ⟨p, e⟩ :: more →
    (∀ torn, e ≠ .reset torn) → (e = .tb → s.sysResetReq = true → s.resetTicks + 1 < s.par.tReset) →
    step s = .next t →
    s.errCount.toNat ≤ t.errCount.toNat ∧ t.errCount.toNat ≤ s.errCount.toNat + 1
end

