-- ==== Sys2Proof/Laws/State.lean ====
section
/-! SUPPORT. What each shared update of a state does to each field: one lemma per field per update, so that no later
proof unfolds a record update. -/

namespace Sys2Proof.Machine

variable (s : State)

/-! ## `clearStrobes` -/

@[simp] theorem State.clearStrobes_par : (s.clearStrobes).par = s.par := rfl
@[simp] theorem State.clearStrobes_ports : (s.clearStrobes).ports = s.ports := rfl
@[simp] theorem State.clearStrobes_inputs : (s.clearStrobes).inputs = s.inputs := rfl
@[simp] theorem State.clearStrobes_clock : (s.clearStrobes).clock = s.clock := rfl
@[simp] theorem State.clearStrobes_phase : (s.clearStrobes).phase = s.phase := rfl
@[simp] theorem State.clearStrobes_halfSynced : (s.clearStrobes).halfSynced = s.halfSynced := rfl
@[simp] theorem State.clearStrobes_opcode : (s.clearStrobes).opcode = s.opcode := rfl
@[simp] theorem State.clearStrobes_addr : (s.clearStrobes).addr = s.addr := rfl
@[simp] theorem State.clearStrobes_count : (s.clearStrobes).count = s.count := rfl
@[simp] theorem State.clearStrobes_expected : (s.clearStrobes).expected = s.expected := rfl
@[simp] theorem State.clearStrobes_eat : (s.clearStrobes).eat = s.eat := rfl
@[simp] theorem State.clearStrobes_eatDyn : (s.clearStrobes).eatDyn = s.eatDyn := rfl
@[simp] theorem State.clearStrobes_acc : (s.clearStrobes).acc = s.acc := rfl
@[simp] theorem State.clearStrobes_wdt : (s.clearStrobes).wdt = s.wdt := rfl
@[simp] theorem State.clearStrobes_errCount : (s.clearStrobes).errCount = s.errCount := rfl
@[simp] theorem State.clearStrobes_lastCause : (s.clearStrobes).lastCause = s.lastCause := rfl
@[simp] theorem State.clearStrobes_fatal : (s.clearStrobes).fatal = s.fatal := rfl
@[simp] theorem State.clearStrobes_fatalCode : (s.clearStrobes).fatalCode = s.fatalCode := rfl
@[simp] theorem State.clearStrobes_ownId : (s.clearStrobes).ownId = s.ownId := rfl
@[simp] theorem State.clearStrobes_cfg : (s.clearStrobes).cfg = s.cfg := rfl
@[simp] theorem State.clearStrobes_handoffPending : (s.clearStrobes).handoffPending = s.handoffPending := rfl
@[simp] theorem State.clearStrobes_stopped : (s.clearStrobes).stopped = s.stopped := rfl
@[simp] theorem State.clearStrobes_resetPending : (s.clearStrobes).resetPending = s.resetPending := rfl
@[simp] theorem State.clearStrobes_cursor : (s.clearStrobes).cursor = s.cursor := rfl
@[simp] theorem State.clearStrobes_variant : (s.clearStrobes).variant = s.variant := rfl
@[simp] theorem State.clearStrobes_taState : (s.clearStrobes).taState = s.taState := rfl
@[simp] theorem State.clearStrobes_taTimer : (s.clearStrobes).taTimer = s.taTimer := rfl
@[simp] theorem State.clearStrobes_taIdx : (s.clearStrobes).taIdx = s.taIdx := rfl
@[simp] theorem State.clearStrobes_de : (s.clearStrobes).de = s.de := rfl
@[simp] theorem State.clearStrobes_re : (s.clearStrobes).re = s.re := rfl
@[simp] theorem State.clearStrobes_txLen : (s.clearStrobes).txLen = s.txLen := rfl
@[simp] theorem State.clearStrobes_txChk : (s.clearStrobes).txChk = s.txChk := rfl
@[simp] theorem State.clearStrobes_rxbuf : (s.clearStrobes).rxbuf = s.rxbuf := rfl
@[simp] theorem State.clearStrobes_txbuf : (s.clearStrobes).txbuf = s.txbuf := rfl
@[simp] theorem State.clearStrobes_nvm : (s.clearStrobes).nvm = s.nvm := rfl
@[simp] theorem State.clearStrobes_flash : (s.clearStrobes).flash = s.flash := rfl
@[simp] theorem State.clearStrobes_rxq : (s.clearStrobes).rxq = s.rxq := rfl
@[simp] theorem State.clearStrobes_rxPop : (s.clearStrobes).rxPop = false := rfl
@[simp] theorem State.clearStrobes_txData : (s.clearStrobes).txData = s.txData := rfl
@[simp] theorem State.clearStrobes_txWrite : (s.clearStrobes).txWrite = false := rfl
@[simp] theorem State.clearStrobes_calls : (s.clearStrobes).calls = [] := rfl
@[simp] theorem State.clearStrobes_bootHandoff : (s.clearStrobes).bootHandoff = s.bootHandoff := rfl
@[simp] theorem State.clearStrobes_sysResetReq : (s.clearStrobes).sysResetReq = s.sysResetReq := rfl
@[simp] theorem State.clearStrobes_timerIrqMask : (s.clearStrobes).timerIrqMask = s.timerIrqMask := rfl
@[simp] theorem State.clearStrobes_resetTicks : (s.clearStrobes).resetTicks = s.resetTicks := rfl

/-! ## `call` -/

@[simp] theorem State.call_par (c : Call) : (s.call c).par = s.par := rfl
@[simp] theorem State.call_ports (c : Call) : (s.call c).ports = s.ports := rfl
@[simp] theorem State.call_inputs (c : Call) : (s.call c).inputs = s.inputs := rfl
@[simp] theorem State.call_clock (c : Call) : (s.call c).clock = s.clock := rfl
@[simp] theorem State.call_phase (c : Call) : (s.call c).phase = s.phase := rfl
@[simp] theorem State.call_halfSynced (c : Call) : (s.call c).halfSynced = s.halfSynced := rfl
@[simp] theorem State.call_opcode (c : Call) : (s.call c).opcode = s.opcode := rfl
@[simp] theorem State.call_addr (c : Call) : (s.call c).addr = s.addr := rfl
@[simp] theorem State.call_count (c : Call) : (s.call c).count = s.count := rfl
@[simp] theorem State.call_expected (c : Call) : (s.call c).expected = s.expected := rfl
@[simp] theorem State.call_eat (c : Call) : (s.call c).eat = s.eat := rfl
@[simp] theorem State.call_eatDyn (c : Call) : (s.call c).eatDyn = s.eatDyn := rfl
@[simp] theorem State.call_acc (c : Call) : (s.call c).acc = s.acc := rfl
@[simp] theorem State.call_wdt (c : Call) : (s.call c).wdt = s.wdt := rfl
@[simp] theorem State.call_errCount (c : Call) : (s.call c).errCount = s.errCount := rfl
@[simp] theorem State.call_lastCause (c : Call) : (s.call c).lastCause = s.lastCause := rfl
@[simp] theorem State.call_fatal (c : Call) : (s.call c).fatal = s.fatal := rfl
@[simp] theorem State.call_fatalCode (c : Call) : (s.call c).fatalCode = s.fatalCode := rfl
@[simp] theorem State.call_ownId (c : Call) : (s.call c).ownId = s.ownId := rfl
@[simp] theorem State.call_cfg (c : Call) : (s.call c).cfg = s.cfg := rfl
@[simp] theorem State.call_handoffPending (c : Call) : (s.call c).handoffPending = s.handoffPending := rfl
@[simp] theorem State.call_stopped (c : Call) : (s.call c).stopped = s.stopped := rfl
@[simp] theorem State.call_resetPending (c : Call) : (s.call c).resetPending = s.resetPending := rfl
@[simp] theorem State.call_cursor (c : Call) : (s.call c).cursor = s.cursor := rfl
@[simp] theorem State.call_variant (c : Call) : (s.call c).variant = s.variant := rfl
@[simp] theorem State.call_taState (c : Call) : (s.call c).taState = s.taState := rfl
@[simp] theorem State.call_taTimer (c : Call) : (s.call c).taTimer = s.taTimer := rfl
@[simp] theorem State.call_taIdx (c : Call) : (s.call c).taIdx = s.taIdx := rfl
@[simp] theorem State.call_de (c : Call) : (s.call c).de = s.de := rfl
@[simp] theorem State.call_re (c : Call) : (s.call c).re = s.re := rfl
@[simp] theorem State.call_txLen (c : Call) : (s.call c).txLen = s.txLen := rfl
@[simp] theorem State.call_txChk (c : Call) : (s.call c).txChk = s.txChk := rfl
@[simp] theorem State.call_rxbuf (c : Call) : (s.call c).rxbuf = s.rxbuf := rfl
@[simp] theorem State.call_txbuf (c : Call) : (s.call c).txbuf = s.txbuf := rfl
@[simp] theorem State.call_nvm (c : Call) : (s.call c).nvm = s.nvm := rfl
@[simp] theorem State.call_flash (c : Call) : (s.call c).flash = s.flash := rfl
@[simp] theorem State.call_rxq (c : Call) : (s.call c).rxq = s.rxq := rfl
@[simp] theorem State.call_rxPop (c : Call) : (s.call c).rxPop = s.rxPop := rfl
@[simp] theorem State.call_txData (c : Call) : (s.call c).txData = s.txData := rfl
@[simp] theorem State.call_txWrite (c : Call) : (s.call c).txWrite = s.txWrite := rfl
@[simp] theorem State.call_calls (c : Call) : (s.call c).calls = s.calls ++ [c] := rfl
@[simp] theorem State.call_bootHandoff (c : Call) : (s.call c).bootHandoff = s.bootHandoff := rfl
@[simp] theorem State.call_sysResetReq (c : Call) : (s.call c).sysResetReq = s.sysResetReq := rfl
@[simp] theorem State.call_timerIrqMask (c : Call) : (s.call c).timerIrqMask = s.timerIrqMask := rfl
@[simp] theorem State.call_resetTicks (c : Call) : (s.call c).resetTicks = s.resetTicks := rfl

/-! ## `unread` -/

@[simp] theorem State.unread_par (bytes : List Byte) : (s.unread bytes).par = s.par := rfl
@[simp] theorem State.unread_ports (bytes : List Byte) : (s.unread bytes).ports = s.ports := rfl
@[simp] theorem State.unread_inputs (bytes : List Byte) : (s.unread bytes).inputs = s.inputs := rfl
@[simp] theorem State.unread_clock (bytes : List Byte) : (s.unread bytes).clock = s.clock := rfl
@[simp] theorem State.unread_phase (bytes : List Byte) : (s.unread bytes).phase = s.phase := rfl
@[simp] theorem State.unread_halfSynced (bytes : List Byte) : (s.unread bytes).halfSynced = s.halfSynced := rfl
@[simp] theorem State.unread_opcode (bytes : List Byte) : (s.unread bytes).opcode = s.opcode := rfl
@[simp] theorem State.unread_addr (bytes : List Byte) : (s.unread bytes).addr = s.addr := rfl
@[simp] theorem State.unread_count (bytes : List Byte) : (s.unread bytes).count = s.count := rfl
@[simp] theorem State.unread_expected (bytes : List Byte) : (s.unread bytes).expected = s.expected := rfl
@[simp] theorem State.unread_eat (bytes : List Byte) : (s.unread bytes).eat = s.eat := rfl
@[simp] theorem State.unread_eatDyn (bytes : List Byte) : (s.unread bytes).eatDyn = s.eatDyn := rfl
@[simp] theorem State.unread_acc (bytes : List Byte) : (s.unread bytes).acc = s.acc := rfl
@[simp] theorem State.unread_wdt (bytes : List Byte) : (s.unread bytes).wdt = s.wdt := rfl
@[simp] theorem State.unread_errCount (bytes : List Byte) : (s.unread bytes).errCount = s.errCount := rfl
@[simp] theorem State.unread_lastCause (bytes : List Byte) : (s.unread bytes).lastCause = s.lastCause := rfl
@[simp] theorem State.unread_fatal (bytes : List Byte) : (s.unread bytes).fatal = s.fatal := rfl
@[simp] theorem State.unread_fatalCode (bytes : List Byte) : (s.unread bytes).fatalCode = s.fatalCode := rfl
@[simp] theorem State.unread_ownId (bytes : List Byte) : (s.unread bytes).ownId = s.ownId := rfl
@[simp] theorem State.unread_cfg (bytes : List Byte) : (s.unread bytes).cfg = s.cfg := rfl
@[simp] theorem State.unread_handoffPending (bytes : List Byte) : (s.unread bytes).handoffPending = s.handoffPending := rfl
@[simp] theorem State.unread_stopped (bytes : List Byte) : (s.unread bytes).stopped = s.stopped := rfl
@[simp] theorem State.unread_resetPending (bytes : List Byte) : (s.unread bytes).resetPending = s.resetPending := rfl
@[simp] theorem State.unread_cursor (bytes : List Byte) : (s.unread bytes).cursor = s.cursor := rfl
@[simp] theorem State.unread_variant (bytes : List Byte) : (s.unread bytes).variant = s.variant := rfl
@[simp] theorem State.unread_taState (bytes : List Byte) : (s.unread bytes).taState = s.taState := rfl
@[simp] theorem State.unread_taTimer (bytes : List Byte) : (s.unread bytes).taTimer = s.taTimer := rfl
@[simp] theorem State.unread_taIdx (bytes : List Byte) : (s.unread bytes).taIdx = s.taIdx := rfl
@[simp] theorem State.unread_de (bytes : List Byte) : (s.unread bytes).de = s.de := rfl
@[simp] theorem State.unread_re (bytes : List Byte) : (s.unread bytes).re = s.re := rfl
@[simp] theorem State.unread_txLen (bytes : List Byte) : (s.unread bytes).txLen = s.txLen := rfl
@[simp] theorem State.unread_txChk (bytes : List Byte) : (s.unread bytes).txChk = s.txChk := rfl
@[simp] theorem State.unread_rxbuf (bytes : List Byte) : (s.unread bytes).rxbuf = s.rxbuf := rfl
@[simp] theorem State.unread_txbuf (bytes : List Byte) : (s.unread bytes).txbuf = s.txbuf := rfl
@[simp] theorem State.unread_nvm (bytes : List Byte) : (s.unread bytes).nvm = s.nvm := rfl
@[simp] theorem State.unread_flash (bytes : List Byte) : (s.unread bytes).flash = s.flash := rfl
@[simp] theorem State.unread_rxq (bytes : List Byte) : (s.unread bytes).rxq = bytes ++ s.rxq := rfl
@[simp] theorem State.unread_rxPop (bytes : List Byte) : (s.unread bytes).rxPop = s.rxPop := rfl
@[simp] theorem State.unread_txData (bytes : List Byte) : (s.unread bytes).txData = s.txData := rfl
@[simp] theorem State.unread_txWrite (bytes : List Byte) : (s.unread bytes).txWrite = s.txWrite := rfl
@[simp] theorem State.unread_calls (bytes : List Byte) : (s.unread bytes).calls = s.calls := rfl
@[simp] theorem State.unread_bootHandoff (bytes : List Byte) : (s.unread bytes).bootHandoff = s.bootHandoff := rfl
@[simp] theorem State.unread_sysResetReq (bytes : List Byte) : (s.unread bytes).sysResetReq = s.sysResetReq := rfl
@[simp] theorem State.unread_timerIrqMask (bytes : List Byte) : (s.unread bytes).timerIrqMask = s.timerIrqMask := rfl
@[simp] theorem State.unread_resetTicks (bytes : List Byte) : (s.unread bytes).resetTicks = s.resetTicks := rfl

/-! ## `raiseFraming` -/

@[simp] theorem State.raiseFraming_par (c : Cause) : (s.raiseFraming c).par = s.par := rfl
@[simp] theorem State.raiseFraming_ports (c : Cause) : (s.raiseFraming c).ports = s.ports := rfl
@[simp] theorem State.raiseFraming_inputs (c : Cause) : (s.raiseFraming c).inputs = s.inputs := rfl
@[simp] theorem State.raiseFraming_clock (c : Cause) : (s.raiseFraming c).clock = s.clock := rfl
@[simp] theorem State.raiseFraming_phase (c : Cause) : (s.raiseFraming c).phase = .error := rfl
@[simp] theorem State.raiseFraming_halfSynced (c : Cause) : (s.raiseFraming c).halfSynced = s.halfSynced := rfl
@[simp] theorem State.raiseFraming_opcode (c : Cause) : (s.raiseFraming c).opcode = s.opcode := rfl
@[simp] theorem State.raiseFraming_addr (c : Cause) : (s.raiseFraming c).addr = s.addr := rfl
@[simp] theorem State.raiseFraming_count (c : Cause) : (s.raiseFraming c).count = s.count := rfl
@[simp] theorem State.raiseFraming_expected (c : Cause) : (s.raiseFraming c).expected = s.expected := rfl
@[simp] theorem State.raiseFraming_eat (c : Cause) : (s.raiseFraming c).eat = s.eat := rfl
@[simp] theorem State.raiseFraming_eatDyn (c : Cause) : (s.raiseFraming c).eatDyn = s.eatDyn := rfl
@[simp] theorem State.raiseFraming_acc (c : Cause) : (s.raiseFraming c).acc = s.acc := rfl
@[simp] theorem State.raiseFraming_wdt (c : Cause) : (s.raiseFraming c).wdt = s.wdt := rfl
@[simp] theorem State.raiseFraming_errCount (c : Cause) : (s.raiseFraming c).errCount = s.errCount := rfl
@[simp] theorem State.raiseFraming_lastCause (c : Cause) : (s.raiseFraming c).lastCause = c := rfl
@[simp] theorem State.raiseFraming_fatal (c : Cause) : (s.raiseFraming c).fatal = s.fatal := rfl
@[simp] theorem State.raiseFraming_fatalCode (c : Cause) : (s.raiseFraming c).fatalCode = s.fatalCode := rfl
@[simp] theorem State.raiseFraming_ownId (c : Cause) : (s.raiseFraming c).ownId = s.ownId := rfl
@[simp] theorem State.raiseFraming_cfg (c : Cause) : (s.raiseFraming c).cfg = s.cfg := rfl
@[simp] theorem State.raiseFraming_handoffPending (c : Cause) : (s.raiseFraming c).handoffPending = s.handoffPending := rfl
@[simp] theorem State.raiseFraming_stopped (c : Cause) : (s.raiseFraming c).stopped = s.stopped := rfl
@[simp] theorem State.raiseFraming_resetPending (c : Cause) : (s.raiseFraming c).resetPending = s.resetPending := rfl
@[simp] theorem State.raiseFraming_cursor (c : Cause) : (s.raiseFraming c).cursor = s.cursor := rfl
@[simp] theorem State.raiseFraming_variant (c : Cause) : (s.raiseFraming c).variant = s.variant := rfl
@[simp] theorem State.raiseFraming_taState (c : Cause) : (s.raiseFraming c).taState = s.taState := rfl
@[simp] theorem State.raiseFraming_taTimer (c : Cause) : (s.raiseFraming c).taTimer = s.taTimer := rfl
@[simp] theorem State.raiseFraming_taIdx (c : Cause) : (s.raiseFraming c).taIdx = s.taIdx := rfl
@[simp] theorem State.raiseFraming_de (c : Cause) : (s.raiseFraming c).de = s.de := rfl
@[simp] theorem State.raiseFraming_re (c : Cause) : (s.raiseFraming c).re = s.re := rfl
@[simp] theorem State.raiseFraming_txLen (c : Cause) : (s.raiseFraming c).txLen = s.txLen := rfl
@[simp] theorem State.raiseFraming_txChk (c : Cause) : (s.raiseFraming c).txChk = s.txChk := rfl
@[simp] theorem State.raiseFraming_rxbuf (c : Cause) : (s.raiseFraming c).rxbuf = s.rxbuf := rfl
@[simp] theorem State.raiseFraming_txbuf (c : Cause) : (s.raiseFraming c).txbuf = s.txbuf := rfl
@[simp] theorem State.raiseFraming_nvm (c : Cause) : (s.raiseFraming c).nvm = s.nvm := rfl
@[simp] theorem State.raiseFraming_flash (c : Cause) : (s.raiseFraming c).flash = s.flash := rfl
@[simp] theorem State.raiseFraming_rxq (c : Cause) : (s.raiseFraming c).rxq = s.rxq := rfl
@[simp] theorem State.raiseFraming_rxPop (c : Cause) : (s.raiseFraming c).rxPop = s.rxPop := rfl
@[simp] theorem State.raiseFraming_txData (c : Cause) : (s.raiseFraming c).txData = s.txData := rfl
@[simp] theorem State.raiseFraming_txWrite (c : Cause) : (s.raiseFraming c).txWrite = s.txWrite := rfl
@[simp] theorem State.raiseFraming_calls (c : Cause) : (s.raiseFraming c).calls = s.calls := rfl
@[simp] theorem State.raiseFraming_bootHandoff (c : Cause) : (s.raiseFraming c).bootHandoff = s.bootHandoff := rfl
@[simp] theorem State.raiseFraming_sysResetReq (c : Cause) : (s.raiseFraming c).sysResetReq = s.sysResetReq := rfl
@[simp] theorem State.raiseFraming_timerIrqMask (c : Cause) : (s.raiseFraming c).timerIrqMask = s.timerIrqMask := rfl
@[simp] theorem State.raiseFraming_resetTicks (c : Cause) : (s.raiseFraming c).resetTicks = s.resetTicks := rfl

/-! ## `raiseFatal` -/

@[simp] theorem State.raiseFatal_par (c : FatalCode) : (s.raiseFatal c).par = s.par := rfl
@[simp] theorem State.raiseFatal_ports (c : FatalCode) : (s.raiseFatal c).ports = s.ports := rfl
@[simp] theorem State.raiseFatal_inputs (c : FatalCode) : (s.raiseFatal c).inputs = s.inputs := rfl
@[simp] theorem State.raiseFatal_clock (c : FatalCode) : (s.raiseFatal c).clock = s.clock := rfl
@[simp] theorem State.raiseFatal_phase (c : FatalCode) : (s.raiseFatal c).phase = s.phase := rfl
@[simp] theorem State.raiseFatal_halfSynced (c : FatalCode) : (s.raiseFatal c).halfSynced = s.halfSynced := rfl
@[simp] theorem State.raiseFatal_opcode (c : FatalCode) : (s.raiseFatal c).opcode = s.opcode := rfl
@[simp] theorem State.raiseFatal_addr (c : FatalCode) : (s.raiseFatal c).addr = s.addr := rfl
@[simp] theorem State.raiseFatal_count (c : FatalCode) : (s.raiseFatal c).count = s.count := rfl
@[simp] theorem State.raiseFatal_expected (c : FatalCode) : (s.raiseFatal c).expected = s.expected := rfl
@[simp] theorem State.raiseFatal_eat (c : FatalCode) : (s.raiseFatal c).eat = s.eat := rfl
@[simp] theorem State.raiseFatal_eatDyn (c : FatalCode) : (s.raiseFatal c).eatDyn = s.eatDyn := rfl
@[simp] theorem State.raiseFatal_acc (c : FatalCode) : (s.raiseFatal c).acc = s.acc := rfl
@[simp] theorem State.raiseFatal_wdt (c : FatalCode) : (s.raiseFatal c).wdt = s.wdt := rfl
@[simp] theorem State.raiseFatal_errCount (c : FatalCode) : (s.raiseFatal c).errCount = s.errCount := rfl
@[simp] theorem State.raiseFatal_lastCause (c : FatalCode) : (s.raiseFatal c).lastCause = s.lastCause := rfl
@[simp] theorem State.raiseFatal_fatal (c : FatalCode) : (s.raiseFatal c).fatal = true := rfl
@[simp] theorem State.raiseFatal_fatalCode (c : FatalCode) : (s.raiseFatal c).fatalCode = c := rfl
@[simp] theorem State.raiseFatal_ownId (c : FatalCode) : (s.raiseFatal c).ownId = s.ownId := rfl
@[simp] theorem State.raiseFatal_cfg (c : FatalCode) : (s.raiseFatal c).cfg = s.cfg := rfl
@[simp] theorem State.raiseFatal_handoffPending (c : FatalCode) : (s.raiseFatal c).handoffPending = s.handoffPending := rfl
@[simp] theorem State.raiseFatal_stopped (c : FatalCode) : (s.raiseFatal c).stopped = s.stopped := rfl
@[simp] theorem State.raiseFatal_resetPending (c : FatalCode) : (s.raiseFatal c).resetPending = s.resetPending := rfl
@[simp] theorem State.raiseFatal_cursor (c : FatalCode) : (s.raiseFatal c).cursor = s.cursor := rfl
@[simp] theorem State.raiseFatal_variant (c : FatalCode) : (s.raiseFatal c).variant = s.variant := rfl
@[simp] theorem State.raiseFatal_taState (c : FatalCode) : (s.raiseFatal c).taState = .rx := rfl
@[simp] theorem State.raiseFatal_taTimer (c : FatalCode) : (s.raiseFatal c).taTimer = s.taTimer := rfl
@[simp] theorem State.raiseFatal_taIdx (c : FatalCode) : (s.raiseFatal c).taIdx = s.taIdx := rfl
@[simp] theorem State.raiseFatal_de (c : FatalCode) : (s.raiseFatal c).de = false := rfl
@[simp] theorem State.raiseFatal_re (c : FatalCode) : (s.raiseFatal c).re = true := rfl
@[simp] theorem State.raiseFatal_txLen (c : FatalCode) : (s.raiseFatal c).txLen = s.txLen := rfl
@[simp] theorem State.raiseFatal_txChk (c : FatalCode) : (s.raiseFatal c).txChk = s.txChk := rfl
@[simp] theorem State.raiseFatal_rxbuf (c : FatalCode) : (s.raiseFatal c).rxbuf = s.rxbuf := rfl
@[simp] theorem State.raiseFatal_txbuf (c : FatalCode) : (s.raiseFatal c).txbuf = s.txbuf := rfl
@[simp] theorem State.raiseFatal_nvm (c : FatalCode) : (s.raiseFatal c).nvm = s.nvm := rfl
@[simp] theorem State.raiseFatal_flash (c : FatalCode) : (s.raiseFatal c).flash = s.flash := rfl
@[simp] theorem State.raiseFatal_rxq (c : FatalCode) : (s.raiseFatal c).rxq = s.rxq := rfl
@[simp] theorem State.raiseFatal_rxPop (c : FatalCode) : (s.raiseFatal c).rxPop = s.rxPop := rfl
@[simp] theorem State.raiseFatal_txData (c : FatalCode) : (s.raiseFatal c).txData = s.txData := rfl
@[simp] theorem State.raiseFatal_txWrite (c : FatalCode) : (s.raiseFatal c).txWrite = s.txWrite := rfl
@[simp] theorem State.raiseFatal_calls (c : FatalCode) : (s.raiseFatal c).calls = s.calls := rfl
@[simp] theorem State.raiseFatal_bootHandoff (c : FatalCode) : (s.raiseFatal c).bootHandoff = s.bootHandoff := rfl
@[simp] theorem State.raiseFatal_sysResetReq (c : FatalCode) : (s.raiseFatal c).sysResetReq = s.sysResetReq := rfl
@[simp] theorem State.raiseFatal_timerIrqMask (c : FatalCode) : (s.raiseFatal c).timerIrqMask = s.timerIrqMask := rfl
@[simp] theorem State.raiseFatal_resetTicks (c : FatalCode) : (s.raiseFatal c).resetTicks = s.resetTicks := rfl

/-! ## `loadIdentity` -/

@[simp] theorem State.loadIdentity_par : (s.loadIdentity).par = s.par := rfl
@[simp] theorem State.loadIdentity_ports : (s.loadIdentity).ports = s.ports := rfl
@[simp] theorem State.loadIdentity_inputs : (s.loadIdentity).inputs = s.inputs := rfl
@[simp] theorem State.loadIdentity_clock : (s.loadIdentity).clock = s.clock := rfl
@[simp] theorem State.loadIdentity_phase : (s.loadIdentity).phase = s.phase := rfl
@[simp] theorem State.loadIdentity_halfSynced : (s.loadIdentity).halfSynced = s.halfSynced := rfl
@[simp] theorem State.loadIdentity_opcode : (s.loadIdentity).opcode = s.opcode := rfl
@[simp] theorem State.loadIdentity_addr : (s.loadIdentity).addr = s.addr := rfl
@[simp] theorem State.loadIdentity_count : (s.loadIdentity).count = s.count := rfl
@[simp] theorem State.loadIdentity_expected : (s.loadIdentity).expected = s.expected := rfl
@[simp] theorem State.loadIdentity_eat : (s.loadIdentity).eat = s.eat := rfl
@[simp] theorem State.loadIdentity_eatDyn : (s.loadIdentity).eatDyn = s.eatDyn := rfl
@[simp] theorem State.loadIdentity_acc : (s.loadIdentity).acc = s.acc := rfl
@[simp] theorem State.loadIdentity_wdt : (s.loadIdentity).wdt = s.wdt := rfl
@[simp] theorem State.loadIdentity_errCount : (s.loadIdentity).errCount = s.errCount := rfl
@[simp] theorem State.loadIdentity_lastCause : (s.loadIdentity).lastCause = s.lastCause := rfl
@[simp] theorem State.loadIdentity_fatal : (s.loadIdentity).fatal = s.fatal := rfl
@[simp] theorem State.loadIdentity_fatalCode : (s.loadIdentity).fatalCode = s.fatalCode := rfl
@[simp] theorem State.loadIdentity_ownId : (s.loadIdentity).ownId = identityOf s.par s.nvmIdentity := rfl
@[simp] theorem State.loadIdentity_cfg : (s.loadIdentity).cfg = s.cfg := rfl
@[simp] theorem State.loadIdentity_handoffPending : (s.loadIdentity).handoffPending = s.handoffPending := rfl
@[simp] theorem State.loadIdentity_stopped : (s.loadIdentity).stopped = s.stopped := rfl
@[simp] theorem State.loadIdentity_resetPending : (s.loadIdentity).resetPending = s.resetPending := rfl
@[simp] theorem State.loadIdentity_cursor : (s.loadIdentity).cursor = s.cursor := rfl
@[simp] theorem State.loadIdentity_variant : (s.loadIdentity).variant = s.variant := rfl
@[simp] theorem State.loadIdentity_taState : (s.loadIdentity).taState = s.taState := rfl
@[simp] theorem State.loadIdentity_taTimer : (s.loadIdentity).taTimer = s.taTimer := rfl
@[simp] theorem State.loadIdentity_taIdx : (s.loadIdentity).taIdx = s.taIdx := rfl
@[simp] theorem State.loadIdentity_de : (s.loadIdentity).de = s.de := rfl
@[simp] theorem State.loadIdentity_re : (s.loadIdentity).re = s.re := rfl
@[simp] theorem State.loadIdentity_txLen : (s.loadIdentity).txLen = s.txLen := rfl
@[simp] theorem State.loadIdentity_txChk : (s.loadIdentity).txChk = s.txChk := rfl
@[simp] theorem State.loadIdentity_rxbuf : (s.loadIdentity).rxbuf = s.rxbuf := rfl
@[simp] theorem State.loadIdentity_txbuf : (s.loadIdentity).txbuf = s.txbuf := rfl
@[simp] theorem State.loadIdentity_nvm : (s.loadIdentity).nvm = s.nvm := rfl
@[simp] theorem State.loadIdentity_flash : (s.loadIdentity).flash = s.flash := rfl
@[simp] theorem State.loadIdentity_rxq : (s.loadIdentity).rxq = s.rxq := rfl
@[simp] theorem State.loadIdentity_rxPop : (s.loadIdentity).rxPop = s.rxPop := rfl
@[simp] theorem State.loadIdentity_txData : (s.loadIdentity).txData = s.txData := rfl
@[simp] theorem State.loadIdentity_txWrite : (s.loadIdentity).txWrite = s.txWrite := rfl
@[simp] theorem State.loadIdentity_calls : (s.loadIdentity).calls = s.calls := rfl
@[simp] theorem State.loadIdentity_bootHandoff : (s.loadIdentity).bootHandoff = s.bootHandoff := rfl
@[simp] theorem State.loadIdentity_sysResetReq : (s.loadIdentity).sysResetReq = s.sysResetReq := rfl
@[simp] theorem State.loadIdentity_timerIrqMask : (s.loadIdentity).timerIrqMask = s.timerIrqMask := rfl
@[simp] theorem State.loadIdentity_resetTicks : (s.loadIdentity).resetTicks = s.resetTicks := rfl

/-! ## `loadConfig` -/

@[simp] theorem State.loadConfig_par : (s.loadConfig).par = s.par := rfl
@[simp] theorem State.loadConfig_ports : (s.loadConfig).ports = s.ports := rfl
@[simp] theorem State.loadConfig_inputs : (s.loadConfig).inputs = s.inputs := rfl
@[simp] theorem State.loadConfig_clock : (s.loadConfig).clock = s.clock := rfl
@[simp] theorem State.loadConfig_phase : (s.loadConfig).phase = s.phase := rfl
@[simp] theorem State.loadConfig_halfSynced : (s.loadConfig).halfSynced = s.halfSynced := rfl
@[simp] theorem State.loadConfig_opcode : (s.loadConfig).opcode = s.opcode := rfl
@[simp] theorem State.loadConfig_addr : (s.loadConfig).addr = s.addr := rfl
@[simp] theorem State.loadConfig_count : (s.loadConfig).count = s.count := rfl
@[simp] theorem State.loadConfig_expected : (s.loadConfig).expected = s.expected := rfl
@[simp] theorem State.loadConfig_eat : (s.loadConfig).eat = s.eat := rfl
@[simp] theorem State.loadConfig_eatDyn : (s.loadConfig).eatDyn = s.eatDyn := rfl
@[simp] theorem State.loadConfig_acc : (s.loadConfig).acc = s.acc := rfl
@[simp] theorem State.loadConfig_wdt : (s.loadConfig).wdt = s.wdt := rfl
@[simp] theorem State.loadConfig_errCount : (s.loadConfig).errCount = s.errCount := rfl
@[simp] theorem State.loadConfig_lastCause : (s.loadConfig).lastCause = s.lastCause := rfl
@[simp] theorem State.loadConfig_fatal : (s.loadConfig).fatal = s.fatal := rfl
@[simp] theorem State.loadConfig_fatalCode : (s.loadConfig).fatalCode = s.fatalCode := rfl
@[simp] theorem State.loadConfig_ownId : (s.loadConfig).ownId = s.ownId := rfl
@[simp] theorem State.loadConfig_cfg : (s.loadConfig).cfg = s.nvmConfig := rfl
@[simp] theorem State.loadConfig_handoffPending : (s.loadConfig).handoffPending = s.handoffPending := rfl
@[simp] theorem State.loadConfig_stopped : (s.loadConfig).stopped = s.stopped := rfl
@[simp] theorem State.loadConfig_resetPending : (s.loadConfig).resetPending = s.resetPending := rfl
@[simp] theorem State.loadConfig_cursor : (s.loadConfig).cursor = s.cursor := rfl
@[simp] theorem State.loadConfig_variant : (s.loadConfig).variant = s.variant := rfl
@[simp] theorem State.loadConfig_taState : (s.loadConfig).taState = s.taState := rfl
@[simp] theorem State.loadConfig_taTimer : (s.loadConfig).taTimer = s.taTimer := rfl
@[simp] theorem State.loadConfig_taIdx : (s.loadConfig).taIdx = s.taIdx := rfl
@[simp] theorem State.loadConfig_de : (s.loadConfig).de = s.de := rfl
@[simp] theorem State.loadConfig_re : (s.loadConfig).re = s.re := rfl
@[simp] theorem State.loadConfig_txLen : (s.loadConfig).txLen = s.txLen := rfl
@[simp] theorem State.loadConfig_txChk : (s.loadConfig).txChk = s.txChk := rfl
@[simp] theorem State.loadConfig_rxbuf : (s.loadConfig).rxbuf = s.rxbuf := rfl
@[simp] theorem State.loadConfig_txbuf : (s.loadConfig).txbuf = s.txbuf := rfl
@[simp] theorem State.loadConfig_nvm : (s.loadConfig).nvm = s.nvm := rfl
@[simp] theorem State.loadConfig_flash : (s.loadConfig).flash = s.flash := rfl
@[simp] theorem State.loadConfig_rxq : (s.loadConfig).rxq = s.rxq := rfl
@[simp] theorem State.loadConfig_rxPop : (s.loadConfig).rxPop = s.rxPop := rfl
@[simp] theorem State.loadConfig_txData : (s.loadConfig).txData = s.txData := rfl
@[simp] theorem State.loadConfig_txWrite : (s.loadConfig).txWrite = s.txWrite := rfl
@[simp] theorem State.loadConfig_calls : (s.loadConfig).calls = s.calls := rfl
@[simp] theorem State.loadConfig_bootHandoff : (s.loadConfig).bootHandoff = s.bootHandoff := rfl
@[simp] theorem State.loadConfig_sysResetReq : (s.loadConfig).sysResetReq = s.sysResetReq := rfl
@[simp] theorem State.loadConfig_timerIrqMask : (s.loadConfig).timerIrqMask = s.timerIrqMask := rfl
@[simp] theorem State.loadConfig_resetTicks : (s.loadConfig).resetTicks = s.resetTicks := rfl

/-! ## `txDiscard` -/

@[simp] theorem State.txDiscard_par : (s.txDiscard).par = s.par := rfl
@[simp] theorem State.txDiscard_ports : (s.txDiscard).ports = s.ports := rfl
@[simp] theorem State.txDiscard_inputs : (s.txDiscard).inputs = s.inputs := rfl
@[simp] theorem State.txDiscard_clock : (s.txDiscard).clock = s.clock := rfl
@[simp] theorem State.txDiscard_phase : (s.txDiscard).phase = s.phase := rfl
@[simp] theorem State.txDiscard_halfSynced : (s.txDiscard).halfSynced = s.halfSynced := rfl
@[simp] theorem State.txDiscard_opcode : (s.txDiscard).opcode = s.opcode := rfl
@[simp] theorem State.txDiscard_addr : (s.txDiscard).addr = s.addr := rfl
@[simp] theorem State.txDiscard_count : (s.txDiscard).count = s.count := rfl
@[simp] theorem State.txDiscard_expected : (s.txDiscard).expected = s.expected := rfl
@[simp] theorem State.txDiscard_eat : (s.txDiscard).eat = s.eat := rfl
@[simp] theorem State.txDiscard_eatDyn : (s.txDiscard).eatDyn = s.eatDyn := rfl
@[simp] theorem State.txDiscard_acc : (s.txDiscard).acc = s.acc := rfl
@[simp] theorem State.txDiscard_wdt : (s.txDiscard).wdt = s.wdt := rfl
@[simp] theorem State.txDiscard_errCount : (s.txDiscard).errCount = s.errCount := rfl
@[simp] theorem State.txDiscard_lastCause : (s.txDiscard).lastCause = s.lastCause := rfl
@[simp] theorem State.txDiscard_fatal : (s.txDiscard).fatal = s.fatal := rfl
@[simp] theorem State.txDiscard_fatalCode : (s.txDiscard).fatalCode = s.fatalCode := rfl
@[simp] theorem State.txDiscard_ownId : (s.txDiscard).ownId = s.ownId := rfl
@[simp] theorem State.txDiscard_cfg : (s.txDiscard).cfg = s.cfg := rfl
@[simp] theorem State.txDiscard_handoffPending : (s.txDiscard).handoffPending = s.handoffPending := rfl
@[simp] theorem State.txDiscard_stopped : (s.txDiscard).stopped = s.stopped := rfl
@[simp] theorem State.txDiscard_resetPending : (s.txDiscard).resetPending = s.resetPending := rfl
@[simp] theorem State.txDiscard_cursor : (s.txDiscard).cursor = s.cursor := rfl
@[simp] theorem State.txDiscard_variant : (s.txDiscard).variant = s.variant := rfl
@[simp] theorem State.txDiscard_taState : (s.txDiscard).taState = s.taState := rfl
@[simp] theorem State.txDiscard_taTimer : (s.txDiscard).taTimer = s.taTimer := rfl
@[simp] theorem State.txDiscard_taIdx : (s.txDiscard).taIdx = s.taIdx := rfl
@[simp] theorem State.txDiscard_de : (s.txDiscard).de = s.de := rfl
@[simp] theorem State.txDiscard_re : (s.txDiscard).re = s.re := rfl
@[simp] theorem State.txDiscard_txLen : (s.txDiscard).txLen = 2 := rfl
@[simp] theorem State.txDiscard_txChk : (s.txDiscard).txChk = s.txChk := rfl
@[simp] theorem State.txDiscard_rxbuf : (s.txDiscard).rxbuf = s.rxbuf := rfl
@[simp] theorem State.txDiscard_txbuf : (s.txDiscard).txbuf = s.txbuf := rfl
@[simp] theorem State.txDiscard_nvm : (s.txDiscard).nvm = s.nvm := rfl
@[simp] theorem State.txDiscard_flash : (s.txDiscard).flash = s.flash := rfl
@[simp] theorem State.txDiscard_rxq : (s.txDiscard).rxq = s.rxq := rfl
@[simp] theorem State.txDiscard_rxPop : (s.txDiscard).rxPop = s.rxPop := rfl
@[simp] theorem State.txDiscard_txData : (s.txDiscard).txData = s.txData := rfl
@[simp] theorem State.txDiscard_txWrite : (s.txDiscard).txWrite = s.txWrite := rfl
@[simp] theorem State.txDiscard_calls : (s.txDiscard).calls = s.calls := rfl
@[simp] theorem State.txDiscard_bootHandoff : (s.txDiscard).bootHandoff = s.bootHandoff := rfl
@[simp] theorem State.txDiscard_sysResetReq : (s.txDiscard).sysResetReq = s.sysResetReq := rfl
@[simp] theorem State.txDiscard_timerIrqMask : (s.txDiscard).timerIrqMask = s.timerIrqMask := rfl
@[simp] theorem State.txDiscard_resetTicks : (s.txDiscard).resetTicks = s.resetTicks := rfl

/-! ## `store` -/

@[simp] theorem State.store_par (sp : Space) (a : Nat) (b : Byte) : (s.store sp a b).par = s.par := by cases sp <;> rfl
@[simp] theorem State.store_ports (sp : Space) (a : Nat) (b : Byte) : (s.store sp a b).ports = s.ports := by cases sp <;> rfl
@[simp] theorem State.store_inputs (sp : Space) (a : Nat) (b : Byte) : (s.store sp a b).inputs = s.inputs := by cases sp <;> rfl
@[simp] theorem State.store_clock (sp : Space) (a : Nat) (b : Byte) : (s.store sp a b).clock = s.clock := by cases sp <;> rfl
@[simp] theorem State.store_phase (sp : Space) (a : Nat) (b : Byte) : (s.store sp a b).phase = s.phase := by cases sp <;> rfl
@[simp] theorem State.store_halfSynced (sp : Space) (a : Nat) (b : Byte) : (s.store sp a b).halfSynced = s.halfSynced := by cases sp <;> rfl
@[simp] theorem State.store_opcode (sp : Space) (a : Nat) (b : Byte) : (s.store sp a b).opcode = s.opcode := by cases sp <;> rfl
@[simp] theorem State.store_addr (sp : Space) (a : Nat) (b : Byte) : (s.store sp a b).addr = s.addr := by cases sp <;> rfl
@[simp] theorem State.store_count (sp : Space) (a : Nat) (b : Byte) : (s.store sp a b).count = s.count := by cases sp <;> rfl
@[simp] theorem State.store_expected (sp : Space) (a : Nat) (b : Byte) : (s.store sp a b).expected = s.expected := by cases sp <;> rfl
@[simp] theorem State.store_eat (sp : Space) (a : Nat) (b : Byte) : (s.store sp a b).eat = s.eat := by cases sp <;> rfl
@[simp] theorem State.store_eatDyn (sp : Space) (a : Nat) (b : Byte) : (s.store sp a b).eatDyn = s.eatDyn := by cases sp <;> rfl
@[simp] theorem State.store_acc (sp : Space) (a : Nat) (b : Byte) : (s.store sp a b).acc = s.acc := by cases sp <;> rfl
@[simp] theorem State.store_wdt (sp : Space) (a : Nat) (b : Byte) : (s.store sp a b).wdt = s.wdt := by cases sp <;> rfl
@[simp] theorem State.store_errCount (sp : Space) (a : Nat) (b : Byte) : (s.store sp a b).errCount = s.errCount := by cases sp <;> rfl
@[simp] theorem State.store_lastCause (sp : Space) (a : Nat) (b : Byte) : (s.store sp a b).lastCause = s.lastCause := by cases sp <;> rfl
@[simp] theorem State.store_fatal (sp : Space) (a : Nat) (b : Byte) : (s.store sp a b).fatal = s.fatal := by cases sp <;> rfl
@[simp] theorem State.store_fatalCode (sp : Space) (a : Nat) (b : Byte) : (s.store sp a b).fatalCode = s.fatalCode := by cases sp <;> rfl
@[simp] theorem State.store_ownId (sp : Space) (a : Nat) (b : Byte) : (s.store sp a b).ownId = s.ownId := by cases sp <;> rfl
@[simp] theorem State.store_cfg (sp : Space) (a : Nat) (b : Byte) : (s.store sp a b).cfg = s.cfg := by cases sp <;> rfl
@[simp] theorem State.store_handoffPending (sp : Space) (a : Nat) (b : Byte) : (s.store sp a b).handoffPending = s.handoffPending := by cases sp <;> rfl
@[simp] theorem State.store_stopped (sp : Space) (a : Nat) (b : Byte) : (s.store sp a b).stopped = s.stopped := by cases sp <;> rfl
@[simp] theorem State.store_resetPending (sp : Space) (a : Nat) (b : Byte) : (s.store sp a b).resetPending = s.resetPending := by cases sp <;> rfl
@[simp] theorem State.store_cursor (sp : Space) (a : Nat) (b : Byte) : (s.store sp a b).cursor = s.cursor := by cases sp <;> rfl
@[simp] theorem State.store_variant (sp : Space) (a : Nat) (b : Byte) : (s.store sp a b).variant = s.variant := by cases sp <;> rfl
@[simp] theorem State.store_taState (sp : Space) (a : Nat) (b : Byte) : (s.store sp a b).taState = s.taState := by cases sp <;> rfl
@[simp] theorem State.store_taTimer (sp : Space) (a : Nat) (b : Byte) : (s.store sp a b).taTimer = s.taTimer := by cases sp <;> rfl
@[simp] theorem State.store_taIdx (sp : Space) (a : Nat) (b : Byte) : (s.store sp a b).taIdx = s.taIdx := by cases sp <;> rfl
@[simp] theorem State.store_de (sp : Space) (a : Nat) (b : Byte) : (s.store sp a b).de = s.de := by cases sp <;> rfl
@[simp] theorem State.store_re (sp : Space) (a : Nat) (b : Byte) : (s.store sp a b).re = s.re := by cases sp <;> rfl
@[simp] theorem State.store_txLen (sp : Space) (a : Nat) (b : Byte) : (s.store sp a b).txLen = s.txLen := by cases sp <;> rfl
@[simp] theorem State.store_txChk (sp : Space) (a : Nat) (b : Byte) : (s.store sp a b).txChk = s.txChk := by cases sp <;> rfl
@[simp] theorem State.store_rxq (sp : Space) (a : Nat) (b : Byte) : (s.store sp a b).rxq = s.rxq := by cases sp <;> rfl
@[simp] theorem State.store_rxPop (sp : Space) (a : Nat) (b : Byte) : (s.store sp a b).rxPop = s.rxPop := by cases sp <;> rfl
@[simp] theorem State.store_txData (sp : Space) (a : Nat) (b : Byte) : (s.store sp a b).txData = s.txData := by cases sp <;> rfl
@[simp] theorem State.store_txWrite (sp : Space) (a : Nat) (b : Byte) : (s.store sp a b).txWrite = s.txWrite := by cases sp <;> rfl
@[simp] theorem State.store_calls (sp : Space) (a : Nat) (b : Byte) : (s.store sp a b).calls = s.calls := by cases sp <;> rfl
@[simp] theorem State.store_bootHandoff (sp : Space) (a : Nat) (b : Byte) : (s.store sp a b).bootHandoff = s.bootHandoff := by cases sp <;> rfl
@[simp] theorem State.store_sysResetReq (sp : Space) (a : Nat) (b : Byte) : (s.store sp a b).sysResetReq = s.sysResetReq := by cases sp <;> rfl
@[simp] theorem State.store_timerIrqMask (sp : Space) (a : Nat) (b : Byte) : (s.store sp a b).timerIrqMask = s.timerIrqMask := by cases sp <;> rfl
@[simp] theorem State.store_resetTicks (sp : Space) (a : Nat) (b : Byte) : (s.store sp a b).resetTicks = s.resetTicks := by cases sp <;> rfl

/-! ## `storeBytes` -/

@[simp] theorem State.storeBytes_par (sp : Space) (a : Nat) (bytes : List Byte) : (s.storeBytes sp a bytes).par = s.par := by cases sp <;> rfl
@[simp] theorem State.storeBytes_ports (sp : Space) (a : Nat) (bytes : List Byte) : (s.storeBytes sp a bytes).ports = s.ports := by cases sp <;> rfl
@[simp] theorem State.storeBytes_inputs (sp : Space) (a : Nat) (bytes : List Byte) : (s.storeBytes sp a bytes).inputs = s.inputs := by cases sp <;> rfl
@[simp] theorem State.storeBytes_clock (sp : Space) (a : Nat) (bytes : List Byte) : (s.storeBytes sp a bytes).clock = s.clock := by cases sp <;> rfl
@[simp] theorem State.storeBytes_phase (sp : Space) (a : Nat) (bytes : List Byte) : (s.storeBytes sp a bytes).phase = s.phase := by cases sp <;> rfl
@[simp] theorem State.storeBytes_halfSynced (sp : Space) (a : Nat) (bytes : List Byte) : (s.storeBytes sp a bytes).halfSynced = s.halfSynced := by cases sp <;> rfl
@[simp] theorem State.storeBytes_opcode (sp : Space) (a : Nat) (bytes : List Byte) : (s.storeBytes sp a bytes).opcode = s.opcode := by cases sp <;> rfl
@[simp] theorem State.storeBytes_addr (sp : Space) (a : Nat) (bytes : List Byte) : (s.storeBytes sp a bytes).addr = s.addr := by cases sp <;> rfl
@[simp] theorem State.storeBytes_count (sp : Space) (a : Nat) (bytes : List Byte) : (s.storeBytes sp a bytes).count = s.count := by cases sp <;> rfl
@[simp] theorem State.storeBytes_expected (sp : Space) (a : Nat) (bytes : List Byte) : (s.storeBytes sp a bytes).expected = s.expected := by cases sp <;> rfl
@[simp] theorem State.storeBytes_eat (sp : Space) (a : Nat) (bytes : List Byte) : (s.storeBytes sp a bytes).eat = s.eat := by cases sp <;> rfl
@[simp] theorem State.storeBytes_eatDyn (sp : Space) (a : Nat) (bytes : List Byte) : (s.storeBytes sp a bytes).eatDyn = s.eatDyn := by cases sp <;> rfl
@[simp] theorem State.storeBytes_acc (sp : Space) (a : Nat) (bytes : List Byte) : (s.storeBytes sp a bytes).acc = s.acc := by cases sp <;> rfl
@[simp] theorem State.storeBytes_wdt (sp : Space) (a : Nat) (bytes : List Byte) : (s.storeBytes sp a bytes).wdt = s.wdt := by cases sp <;> rfl
@[simp] theorem State.storeBytes_errCount (sp : Space) (a : Nat) (bytes : List Byte) : (s.storeBytes sp a bytes).errCount = s.errCount := by cases sp <;> rfl
@[simp] theorem State.storeBytes_lastCause (sp : Space) (a : Nat) (bytes : List Byte) : (s.storeBytes sp a bytes).lastCause = s.lastCause := by cases sp <;> rfl
@[simp] theorem State.storeBytes_fatal (sp : Space) (a : Nat) (bytes : List Byte) : (s.storeBytes sp a bytes).fatal = s.fatal := by cases sp <;> rfl
@[simp] theorem State.storeBytes_fatalCode (sp : Space) (a : Nat) (bytes : List Byte) : (s.storeBytes sp a bytes).fatalCode = s.fatalCode := by cases sp <;> rfl
@[simp] theorem State.storeBytes_ownId (sp : Space) (a : Nat) (bytes : List Byte) : (s.storeBytes sp a bytes).ownId = s.ownId := by cases sp <;> rfl
@[simp] theorem State.storeBytes_cfg (sp : Space) (a : Nat) (bytes : List Byte) : (s.storeBytes sp a bytes).cfg = s.cfg := by cases sp <;> rfl
@[simp] theorem State.storeBytes_handoffPending (sp : Space) (a : Nat) (bytes : List Byte) : (s.storeBytes sp a bytes).handoffPending = s.handoffPending := by cases sp <;> rfl
@[simp] theorem State.storeBytes_stopped (sp : Space) (a : Nat) (bytes : List Byte) : (s.storeBytes sp a bytes).stopped = s.stopped := by cases sp <;> rfl
@[simp] theorem State.storeBytes_resetPending (sp : Space) (a : Nat) (bytes : List Byte) : (s.storeBytes sp a bytes).resetPending = s.resetPending := by cases sp <;> rfl
@[simp] theorem State.storeBytes_cursor (sp : Space) (a : Nat) (bytes : List Byte) : (s.storeBytes sp a bytes).cursor = s.cursor := by cases sp <;> rfl
@[simp] theorem State.storeBytes_variant (sp : Space) (a : Nat) (bytes : List Byte) : (s.storeBytes sp a bytes).variant = s.variant := by cases sp <;> rfl
@[simp] theorem State.storeBytes_taState (sp : Space) (a : Nat) (bytes : List Byte) : (s.storeBytes sp a bytes).taState = s.taState := by cases sp <;> rfl
@[simp] theorem State.storeBytes_taTimer (sp : Space) (a : Nat) (bytes : List Byte) : (s.storeBytes sp a bytes).taTimer = s.taTimer := by cases sp <;> rfl
@[simp] theorem State.storeBytes_taIdx (sp : Space) (a : Nat) (bytes : List Byte) : (s.storeBytes sp a bytes).taIdx = s.taIdx := by cases sp <;> rfl
@[simp] theorem State.storeBytes_de (sp : Space) (a : Nat) (bytes : List Byte) : (s.storeBytes sp a bytes).de = s.de := by cases sp <;> rfl
@[simp] theorem State.storeBytes_re (sp : Space) (a : Nat) (bytes : List Byte) : (s.storeBytes sp a bytes).re = s.re := by cases sp <;> rfl
@[simp] theorem State.storeBytes_txLen (sp : Space) (a : Nat) (bytes : List Byte) : (s.storeBytes sp a bytes).txLen = s.txLen := by cases sp <;> rfl
@[simp] theorem State.storeBytes_txChk (sp : Space) (a : Nat) (bytes : List Byte) : (s.storeBytes sp a bytes).txChk = s.txChk := by cases sp <;> rfl
@[simp] theorem State.storeBytes_rxq (sp : Space) (a : Nat) (bytes : List Byte) : (s.storeBytes sp a bytes).rxq = s.rxq := by cases sp <;> rfl
@[simp] theorem State.storeBytes_rxPop (sp : Space) (a : Nat) (bytes : List Byte) : (s.storeBytes sp a bytes).rxPop = s.rxPop := by cases sp <;> rfl
@[simp] theorem State.storeBytes_txData (sp : Space) (a : Nat) (bytes : List Byte) : (s.storeBytes sp a bytes).txData = s.txData := by cases sp <;> rfl
@[simp] theorem State.storeBytes_txWrite (sp : Space) (a : Nat) (bytes : List Byte) : (s.storeBytes sp a bytes).txWrite = s.txWrite := by cases sp <;> rfl
@[simp] theorem State.storeBytes_calls (sp : Space) (a : Nat) (bytes : List Byte) : (s.storeBytes sp a bytes).calls = s.calls := by cases sp <;> rfl
@[simp] theorem State.storeBytes_bootHandoff (sp : Space) (a : Nat) (bytes : List Byte) : (s.storeBytes sp a bytes).bootHandoff = s.bootHandoff := by cases sp <;> rfl
@[simp] theorem State.storeBytes_sysResetReq (sp : Space) (a : Nat) (bytes : List Byte) : (s.storeBytes sp a bytes).sysResetReq = s.sysResetReq := by cases sp <;> rfl
@[simp] theorem State.storeBytes_timerIrqMask (sp : Space) (a : Nat) (bytes : List Byte) : (s.storeBytes sp a bytes).timerIrqMask = s.timerIrqMask := by cases sp <;> rfl
@[simp] theorem State.storeBytes_resetTicks (sp : Space) (a : Nat) (bytes : List Byte) : (s.storeBytes sp a bytes).resetTicks = s.resetTicks := by cases sp <;> rfl

end Sys2Proof.Machine
end

