-- ==== Sys2Proof/Laws/Memory.lean ====
section
/-! SUPPORT. The memory laws: read after write, the frame of a write, and the canonical form every write keeps. -/

namespace Sys2Proof.Machine

variable {u : Nat → Option Byte}

/-- A canonical memory lists nothing at or below a smaller key than its first. -/
theorem Memory.read_of_lt_head {m : Memory} {k : Nat} {v : Byte} {a : Nat} (h : Memory.wf u ((k, v) :: m)) (ha : a < k) :
    Memory.read u m a = u a := by
  have hall : ∀ c ∈ m, k < c.1 := by
    have := h.1
    rw [List.pairwise_cons] at this
    intro c hc
    exact this.1 c hc
  clear h
  induction m with
  | nil => rfl
  | cons c m ih =>
    obtain ⟨k', v'⟩ := c
    have hk : k < k' := hall (k', v') (by simp)
    have hne : k' ≠ a := by omega
    simp only [Memory.read, hne, if_false]
    exact ih fun c hc => hall c (List.mem_cons_of_mem _ hc)

theorem Memory.wf_tail {m : Memory} {c : Host.Cell} (h : Memory.wf u (c :: m)) : Memory.wf u m :=
  ⟨(List.pairwise_cons.mp h.1).2, fun d hd => h.2 d (List.mem_cons_of_mem _ hd)⟩

theorem Memory.wf_nil : Memory.wf u [] := ⟨List.Pairwise.nil, by simp⟩

/-- Reading the address just written gives the byte written. -/
theorem Memory.read_write_same {m : Memory} (h : Memory.wf u m) (a : Nat) (b : Byte) :
    Memory.read u (Memory.write u m a b) a = some b := by
  induction m with
  | nil =>
    by_cases hu : u a = some b <;> simp [Memory.write, Memory.read, hu]
  | cons c m ih =>
    obtain ⟨k, v⟩ := c
    simp only [Memory.write]
    by_cases hlt : a < k
    · have hne : k ≠ a := by omega
      by_cases hu : u a = some b
      · simp [hlt, hu, Memory.read, hne, Memory.read_of_lt_head h hlt]
      · simp [hlt, hu, Memory.read]
    · by_cases heq : a = k
      · subst heq
        by_cases hu : u a = some b
        · simp only [lt_irrefl, if_false, hu, if_true]
          have : Memory.read u m a = u a := by
            cases m with
            | nil => rfl
            | cons d m =>
              obtain ⟨k', v'⟩ := d
              have hk : a < k' := (List.pairwise_cons.mp h.1).1 (k', v') (by simp)
              have hne : k' ≠ a := by omega
              simp only [Memory.read, hne, if_false]
              exact Memory.read_of_lt_head (Memory.wf_tail h) hk
          rw [this, hu]
        · simp [hu, Memory.read]
      · have hne : k ≠ a := fun e => heq e.symm
        simp [hlt, heq, Memory.read, hne, ih (Memory.wf_tail h)]

/-- Writing an address leaves what every other address reads as. -/
theorem Memory.read_write_other (m : Memory) {a c : Nat} (b : Byte) (hne : c ≠ a) :
    Memory.read u (Memory.write u m a b) c = Memory.read u m c := by
  induction m with
  | nil =>
    by_cases hu : u a = some b <;> simp [Memory.write, Memory.read, hu, hne.symm]
  | cons d m ih =>
    obtain ⟨k, v⟩ := d
    simp only [Memory.write]
    by_cases hlt : a < k
    · by_cases hu : u a = some b <;> simp [hlt, hu, Memory.read, hne.symm]
    · by_cases heq : a = k
      · subst heq
        by_cases hu : u a = some b <;> simp [hu, Memory.read, hne.symm]
      · simp [hlt, heq, Memory.read, ih]

theorem Memory.mem_write {m : Memory} {a : Nat} {b : Byte} {c : Host.Cell} (h : c ∈ Memory.write u m a b) :
    c ∈ m ∨ (c = (a, b) ∧ u a ≠ some b) := by
  induction m with
  | nil =>
    by_cases hu : u a = some b <;> simp_all [Memory.write]
  | cons d m ih =>
    obtain ⟨k, v⟩ := d
    simp only [Memory.write] at h
    by_cases hlt : a < k
    · by_cases hu : u a = some b
      · simp only [hlt, hu, if_true] at h; exact .inl h
      · simp only [hlt, hu, if_true, if_false, List.mem_cons] at h
        rcases h with h | h | h
        · exact .inr ⟨h, hu⟩
        · exact .inl (by simp [h])
        · exact .inl (by simp [h])
    · by_cases heq : a = k
      · by_cases hu : u a = some b
        · rw [if_neg hlt, if_pos heq, if_pos hu] at h
          exact .inl (List.mem_cons_of_mem _ h)
        · rw [if_neg hlt, if_pos heq, if_neg hu, List.mem_cons] at h
          rcases h with h | h
          · exact .inr ⟨h, hu⟩
          · exact .inl (List.mem_cons_of_mem _ h)
      · rw [if_neg hlt, if_neg heq, List.mem_cons] at h
        rcases h with h | h
        · exact .inl (by simp [h])
        · rcases ih h with h | h
          · exact .inl (List.mem_cons_of_mem _ h)
          · exact .inr h

/-- A write keeps the canonical form. -/
theorem Memory.wf_write {m : Memory} (h : Memory.wf u m) (a : Nat) (b : Byte) : Memory.wf u (Memory.write u m a b) := by
  refine ⟨?_, ?_⟩
  · induction m with
    | nil => by_cases hu : u a = some b <;> simp [Memory.write, hu]
    | cons d m ih =>
      obtain ⟨k, v⟩ := d
      have hp := List.pairwise_cons.mp h.1
      simp only [Memory.write]
      by_cases hlt : a < k
      · by_cases hu : u a = some b
        · simpa only [hlt, hu, if_true] using h.1
        · simp only [hlt, hu, if_true, if_false]
          refine List.pairwise_cons.mpr ⟨?_, h.1⟩
          intro c hc
          rcases List.mem_cons.mp hc with rfl | hc
          · exact hlt
          · exact lt_trans hlt (hp.1 c hc)
      · by_cases heq : a = k
        · by_cases hu : u a = some b
          · rw [if_neg hlt, if_pos heq, if_pos hu]; exact hp.2
          · rw [if_neg hlt, if_pos heq, if_neg hu]
            refine List.pairwise_cons.mpr ⟨?_, hp.2⟩
            intro c hc
            have := hp.1 c hc
            simp only at this ⊢
            omega
        · rw [if_neg hlt, if_neg heq]
          refine List.pairwise_cons.mpr ⟨?_, ih (Memory.wf_tail h)⟩
          intro c hc
          rcases Memory.mem_write hc with hc | ⟨rfl, _⟩
          · exact hp.1 c hc
          · show k < a
            omega
  · intro c hc
    rcases Memory.mem_write hc with hc | ⟨rfl, hu⟩
    · exact h.2 c hc
    · exact hu

theorem Memory.wf_writeBytes {m : Memory} (h : Memory.wf u m) (a : Nat) (bytes : List Byte) :
    Memory.wf u (Memory.writeBytes u m a bytes) := by
  induction bytes generalizing m a with
  | nil => exact h
  | cons b bs ih => exact ih (Memory.wf_write h a b) (a + 1)

/-- Bytes written from `a` on leave every address outside them. -/
theorem Memory.read_writeBytes_outside (m : Memory) {a c : Nat} (bytes : List Byte)
    (h : c < a ∨ a + bytes.length ≤ c) :
    Memory.read u (Memory.writeBytes u m a bytes) c = Memory.read u m c := by
  induction bytes generalizing m a with
  | nil => rfl
  | cons b bs ih =>
    simp only [List.length_cons] at h
    rw [Memory.writeBytes, ih _ (by omega), Memory.read_write_other _ _ (by omega)]

/-- Bytes written from `a` on are read back, each at its address. -/
theorem Memory.read_writeBytes_inside {m : Memory} (hm : Memory.wf u m) (a : Nat) (bytes : List Byte) {i : Nat}
    (h : i < bytes.length) : Memory.read u (Memory.writeBytes u m a bytes) (a + i) = some bytes[i] := by
  induction bytes generalizing m a i with
  | nil => simp at h
  | cons b bs ih =>
    cases i with
    | zero =>
      rw [Memory.writeBytes, Memory.read_writeBytes_outside _ _ (by omega)]
      simpa using Memory.read_write_same hm a b
    | succ i =>
      have := ih (Memory.wf_write hm a b) (a + 1) (i := i) (by simpa using h)
      rw [Memory.writeBytes]
      simpa [Nat.add_assoc, Nat.add_comm 1 i] using this

theorem Memory.writeBytes_append (m : Memory) (a : Nat) (xs ys : List Byte) :
    Memory.writeBytes u m a (xs ++ ys) = Memory.writeBytes u (Memory.writeBytes u m a xs) (a + xs.length) ys := by
  induction xs generalizing m a with
  | nil => rfl
  | cons x xs ih =>
    rw [List.cons_append, Memory.writeBytes, ih, Memory.writeBytes, List.length_cons]
    congr 1
    omega

/-- Where an unlisted address has no value, reading the address just written gives the byte written, in any memory. -/
theorem Memory.read_write_of_none (m : Memory) {a : Nat} (hu : u a = none) (b : Byte) :
    Memory.read u (Memory.write u m a b) a = some b := by
  induction m with
  | nil => simp [Memory.write, Memory.read, hu]
  | cons d m ih =>
    obtain ⟨k, v⟩ := d
    simp only [Memory.write]
    by_cases hlt : a < k
    · simp [hlt, hu, Memory.read]
    · by_cases heq : a = k
      · subst heq
        simp [hu, Memory.read]
      · have hne : k ≠ a := fun e => heq e.symm
        simp [hlt, heq, Memory.read, hne, ih]

/-- Where unlisted addresses have no value, bytes written from `a` on are read back, in any memory. -/
theorem Memory.read_writeBytes_of_none (hu : ∀ n, u n = none) (m : Memory) (a : Nat) (bytes : List Byte) {i : Nat}
    (h : i < bytes.length) : Memory.read u (Memory.writeBytes u m a bytes) (a + i) = some bytes[i] := by
  induction bytes generalizing m a i with
  | nil => simp at h
  | cons b bs ih =>
    cases i with
    | zero =>
      rw [Memory.writeBytes, Memory.read_writeBytes_outside _ _ (by omega)]
      simpa using Memory.read_write_of_none m (hu a) b
    | succ i =>
      have := ih (Memory.write u m a b) (a + 1) (i := i) (by simpa using h)
      rw [Memory.writeBytes]
      simpa [Nat.add_assoc, Nat.add_comm 1 i] using this

end Sys2Proof.Machine
end

