-- ==== Sys2Proof/Laws/Ops.lean ====
section
/-! SUPPORT. One lemma per shared operation that says what it can do. -/

namespace Sys2Proof.Machine

/-! ## Memories of a state -/

@[simp] theorem State.memory_store_same (s : State) (sp : Space) (a : Nat) (b : Byte) :
    (s.store sp a b).memory sp = Memory.write (unlisted s.par sp) (s.memory sp) a b := by cases sp <;> rfl

theorem State.memory_store_other (s : State) {sp sp' : Space} (h : sp' ≠ sp) (a : Nat) (b : Byte) :
    (s.store sp a b).memory sp' = s.memory sp' := by cases sp <;> cases sp' <;> first | rfl | exact absurd rfl h

@[simp] theorem State.memory_storeBytes_same (s : State) (sp : Space) (a : Nat) (bytes : List Byte) :
    (s.storeBytes sp a bytes).memory sp = Memory.writeBytes (unlisted s.par sp) (s.memory sp) a bytes := by
  cases sp <;> rfl

theorem State.memory_storeBytes_other (s : State) {sp sp' : Space} (h : sp' ≠ sp) (a : Nat) (bytes : List Byte) :
    (s.storeBytes sp a bytes).memory sp' = s.memory sp' := by
  cases sp <;> cases sp' <;> first | rfl | exact absurd rfl h

/-- A byte just stored is loaded back. -/
theorem State.load_store_same (s : State) (sp : Space) (a : Nat) (b : Byte)
    (h : Memory.wf (unlisted s.par sp) (s.memory sp)) : (s.store sp a b).load sp a = some b := by
  simpa [State.load] using Memory.read_write_same h a b

/-- A store leaves every other byte of its space, and every other space. -/
theorem State.load_store_other (s : State) {sp sp' : Space} {a c : Nat} (b : Byte) (h : sp' ≠ sp ∨ c ≠ a) :
    (s.store sp a b).load sp' c = s.load sp' c := by
  by_cases hs : sp' = sp
  · subst hs
    simpa [State.load] using Memory.read_write_other (s.memory sp') b (h.resolve_left (by simp))
  · simp [State.load, State.memory_store_other s hs]

theorem State.load_storeBytes_outside (s : State) {sp sp' : Space} {a c : Nat} (bytes : List Byte)
    (h : sp' ≠ sp ∨ c < a ∨ a + bytes.length ≤ c) : (s.storeBytes sp a bytes).load sp' c = s.load sp' c := by
  by_cases hs : sp' = sp
  · subst hs
    simpa [State.load] using Memory.read_writeBytes_outside (s.memory sp') bytes (h.resolve_left (by simp))
  · simp [State.load, State.memory_storeBytes_other s hs]

theorem State.storeBytes_nil (s : State) (sp : Space) (a : Nat) : s.storeBytes sp a [] = s := by cases sp <;> rfl

theorem State.storeBytes_cons (s : State) (sp : Space) (a : Nat) (b : Byte) (bs : List Byte) :
    s.storeBytes sp a (b :: bs) = (s.store sp a b).storeBytes sp (a + 1) bs := by cases sp <;> rfl

/-- A payload is read back from `RXBUF`, byte by byte. -/
theorem State.rxByte_of_filled (s : State) (payload : List Byte) {i : Nat} (h : i < payload.length) (t : State)
    (ht : t.rxbuf = s.rxFilled payload) : t.rxByte i = payload[i] := by
  have := Memory.read_writeBytes_of_none (u := unlisted s.par .rxbuf) (fun _ => rfl) s.rxbuf 0 payload h
  rw [Nat.zero_add] at this
  simp only [State.rxByte, State.load, State.memory, ht, State.rxFilled]
  rw [show unlisted t.par .rxbuf = unlisted s.par .rxbuf from rfl, this, Option.getD_some]

/-! ## The response encoder -/

/-- `TxAddByte` with room in the buffer (R270). -/
theorem State.txAddByte_of_room (s : State) (b : Byte) (h : s.txLen.toNat < s.par.txBufCap) :
    s.txAddByte b = { s with txbuf := s.txAppended [b], txLen := s.txLen + 1 } := by
  rw [State.txAddByte, if_neg (Nat.not_le.mpr h)]
  rfl

/-- `TxAddByte` without room halts the block and writes nothing (R270). -/
theorem State.txAddByte_of_full (s : State) (b : Byte) (h : s.par.txBufCap ≤ s.txLen.toNat) :
    s.txAddByte b = s.raiseFatal .txOverflow := by
  simp [State.txAddByte, h]

/-- Bytes that fit are appended in order and nothing else changes (R270, R271). -/
theorem State.txAddBytes_of_room (s : State) (bytes : List Byte) (hf : s.fatal = false)
    (h : s.txLen.toNat + bytes.length ≤ s.par.txBufCap) (hw : s.txLen.toNat + bytes.length < 512) :
    s.txAddBytes bytes =
      { s with txbuf := s.txAppended bytes, txLen := s.txLen + BitVec.ofNat 9 bytes.length } := by
  induction bytes generalizing s with
  | nil => cases s; simp [State.txAddBytes, State.txAppended, Memory.writeBytes]
  | cons b bs ih =>
    simp only [List.length_cons] at h hw
    have hl : (s.txLen + 1).toNat = s.txLen.toNat + 1 := by
      rw [BitVec.toNat_add]; simp; omega
    have hlen : s.txLen + 1 + BitVec.ofNat 9 bs.length = s.txLen + BitVec.ofNat 9 (bs.length + 1) := by
      rw [BitVec.add_assoc]
      congr 1
      apply BitVec.eq_of_toNat_eq
      simp [BitVec.toNat_add]
      omega
    rw [State.txAddBytes, State.txAddByte_of_room s b (by omega)]
    rw [if_neg (by simp [hf]), ih _ (by exact hf) (by simp only [hl]; omega) (by simp only [hl]; omega)]
    simp only [State.txAppended, hl, hlen, Memory.writeBytes, List.length_cons]

/-- `TxAddByte` changes only the response buffer, its length and, when the buffer is full, the halt's registers. -/
theorem State.txAddBytes_frame (s : State) (bytes : List Byte) :
    ∃ m l f fc d r t, s.txAddBytes bytes =
      { s with txbuf := m, txLen := l, fatal := f, fatalCode := fc, de := d, re := r, taState := t } := by
  induction bytes generalizing s with
  | nil => exact ⟨s.txbuf, s.txLen, s.fatal, s.fatalCode, s.de, s.re, s.taState, rfl⟩
  | cons b bs ih =>
    rw [State.txAddBytes]
    have h1 : ∃ m l f fc d r t, s.txAddByte b =
        { s with txbuf := m, txLen := l, fatal := f, fatalCode := fc, de := d, re := r, taState := t } := by
      unfold State.txAddByte
      split
      · exact ⟨_, _, _, _, _, _, _, rfl⟩
      · exact ⟨_, _, _, _, _, _, _, rfl⟩
    split
    · exact h1
    · obtain ⟨m, l, f, fc, d, r, t, h⟩ := h1
      obtain ⟨m', l', f', fc', d', r', t', h'⟩ := ih (s.txAddByte b)
      exact ⟨m', l', f', fc', d', r', t', by rw [h', h]⟩

/-- A generated checksum makes the frame sum to 0 (R274). -/
theorem sumBytes_append (xs ys : List Byte) : sumBytes (xs ++ ys) = sumBytes xs + sumBytes ys := by
  induction xs with
  | nil => simp [sumBytes]
  | cons x xs ih => simp [sumBytes, ih, BitVec.add_assoc]

/-- From a page boundary inside the application area the cursor advances to a page boundary not beyond its end (R88,
R352). -/
theorem State.advancedCursor_aligned (s : State) (hm : s.par.appLimit % s.par.pageSize = 0)
    (hc : s.cursor % s.par.pageSize = 0) (hl : s.cursor < s.par.appLimit) :
    s.advancedCursor % s.par.pageSize = 0 ∧ s.advancedCursor ≤ s.par.appLimit := by
  refine ⟨(Nat.add_mod_right _ _).trans hc, ?_⟩
  obtain ⟨m, hm⟩ := Nat.dvd_of_mod_eq_zero hm
  obtain ⟨n, hn⟩ := Nat.dvd_of_mod_eq_zero hc
  show s.cursor + s.par.pageSize ≤ s.par.appLimit
  rw [hm, hn] at hl ⊢
  exact Nat.mul_le_mul_left s.par.pageSize (Nat.lt_of_mul_lt_mul_left hl)

/-- Appending a byte leaves the bytes below `tx_len` as they are (R84, R270). -/
theorem State.load_txAddByte_below (s : State) (b : Byte) {n : Nat} (h : n < s.txLen.toNat) :
    (s.txAddByte b).load .txbuf n = s.load .txbuf n := by
  unfold State.txAddByte
  split
  · rfl
  · exact State.load_store_other s b (.inr (Nat.ne_of_lt h))

end Sys2Proof.Machine
end

