-- ==== Sys2Proof/Laws/Step.lean ====
section
/-! SUPPORT. What a step can do, said once: a property that every rule keeps is kept by every step. -/

namespace Sys2Proof.Machine

/-- The state with the fields that no rule of the receiver or the turnaround keeps between steps replaced: the pins,
the model's own input list and count, the receive interface and the strobes. -/
def State.reframe (s : State) (ports : Ports) (inputs : List Input) (clock : Nat) (rxq : List Byte)
    (rxPop txWrite : Bool) (calls : List Call) : State :=
  { s with
    ports := ports
    inputs := inputs
    clock := clock
    rxq := rxq
    rxPop := rxPop
    txWrite := txWrite
    calls := calls }

/-- A property of states that the byte rules and `Error` keep. -/
structure KeepsBytes (P : State → Prop) : Prop where
  /-- The pins, the model's own input list and count, the receive interface and the strobes do not matter to it. -/
  frame : ∀ (s : State) (ports : Ports) (inputs : List Input) (clock : Nat) (rxq : List Byte) (rxPop txWrite : Bool)
    (calls : List Call), P s → P (s.reframe ports inputs clock rxq rxPop txWrite calls)
  /-- The byte rules (R161 to R176), the watchdog cleared. -/
  byte : ∀ (s : State) (b : Byte), P s → s.receiverHalted = false → s.phase.consumes = true →
    P ({ s with wdt := 0 }.byteRule b)
  /-- `Error` (R177). -/
  error : ∀ s : State, P s → s.receiverHalted = false → s.phase = .error → P s.errorPhase

/-- A property of states that every rule of the receiver keeps. -/
structure KeepsReceiver (P : State → Prop) : Prop extends KeepsBytes P where
  /-- The watchdog (R179, R180). -/
  idle : ∀ s : State, P s → s.receiverHalted = false → s.phase.consumes = true → P s.idle
  /-- `Finished` (R182 to R185). -/
  finished : ∀ s : State, P s → s.receiverHalted = false → s.phase = .finished → P s.finishedPhase
  /-- An unencoded phase (R190). -/
  illegal : ∀ (s : State) (n : Fin 7), P s → s.receiverHalted = false → s.phase = .illegal n →
    P (s.raiseFatal .illegalState)
  /-- A runtime command dispatched (R181, R220). -/
  command : ∀ (s : State) (op : Byte), P s → s.receiverHalted = false → s.phase = .pending → isCommand op = true →
    P (s.dispatchRuntime op).endDispatch
  /-- A boot request dispatched (R345). -/
  request : ∀ (s t : State) (c : Byte), P s → s.receiverHalted = false → s.phase = .pending →
    s.dispatchBoot c = .next t → P t
  /-- A dispatch of no opcode of the variant (R181). -/
  unknown : ∀ s : State, P s → s.receiverHalted = false → s.phase = .pending →
    (isCommand s.opcode = false ∨ (s.variant = .boot ∧ s.opcode ≠ opRaw)) →
    P (s.raiseFatal .unknownOpcode).endDispatch

/-- A property of states that every rule keeps. -/
structure Keeps (P : State → Prop) : Prop extends KeepsReceiver P where
  /-- A timebase tick (R300, R353). -/
  tick : ∀ s : State, P s → P s.tick
  /-- A reset (R430, R435). -/
  reset : ∀ (s : State) (torn : Option (List Byte)), P s → P (s.externalReset torn)

section
variable {P : State → Prop}

theorem KeepsBytes.clearStrobes (k : KeepsBytes P) {s : State} (h : P s) : P s.clearStrobes :=
  k.frame s s.ports s.inputs s.clock s.rxq false false [] h

theorem KeepsBytes.withRxq (k : KeepsBytes P) {s : State} (h : P s) (q : List Byte) : P { s with rxq := q } :=
  k.frame s s.ports s.inputs s.clock q s.rxPop s.txWrite s.calls h

theorem KeepsBytes.beginStep (k : KeepsBytes P) {s : State} (h : P s) : P s.beginStep :=
  k.frame s _ _ (s.clock + 1) s.rxq false false [] h

theorem KeepsBytes.consume (k : KeepsBytes P) {s : State} (h : P s) (ht : s.takesByte = true) (b : Byte) : P (s.consume b) := by
  simp only [State.takesByte, Bool.and_eq_true, Bool.not_eq_true'] at ht
  exact k.byte { s with rxPop := true } b (k.frame s s.ports s.inputs s.clock s.rxq true s.txWrite s.calls h) ht.1 ht.2

theorem KeepsBytes.feed (k : KeepsBytes P) (bytes : List Byte) {s : State} (h : P s) : P (s.feed bytes).1 := by
  induction bytes generalizing s with
  | nil => exact h
  | cons b bs ih =>
    rw [State.feed]
    split
    · next ht => exact ih (k.consume h ht b)
    · exact h

theorem KeepsBytes.receive (k : KeepsBytes P) (frame : List Byte) {s : State} (h : P s) : P (s.receive frame) :=
  k.withRxq (k.feed frame (k.clearStrobes h)) _

/-- The runtime dispatch of one opcode is that opcode's effect. -/
theorem State.dispatchRuntime_eq (s : State) :
    s.dispatchRuntime opReqdata = s.reqdataBody ∧ s.dispatchRuntime opSetv0 = s.setv0Body ∧
    s.dispatchRuntime opSetv1 = s.setv1Body ∧ s.dispatchRuntime opPing = s.pingBody ∧
    s.dispatchRuntime opSetlimit = s.setlimitBody ∧ s.dispatchRuntime opSetid = s.setidBody ∧
    s.dispatchRuntime opConfig = s.configBody ∧ s.dispatchRuntime opSensor = s.sensorBody ∧
    s.dispatchRuntime opRaw = s.rawBody := by
  refine ⟨?_, ?_, ?_, ?_, ?_, ?_, ?_, ?_, ?_⟩ <;> simp [State.dispatchRuntime]

/-- Outside the command set the runtime dispatch halts the block (R387). -/
theorem State.dispatchRuntime_unknown (s : State) {op : Byte} (h : isCommand op = false) :
    s.dispatchRuntime op = s.raiseFatal .unknownOpcode := by
  simp_all [isCommand, State.dispatchRuntime]

/-- The boot dispatch of one command byte is that request's effect (R345). -/
theorem State.dispatchBoot_eq (s : State) :
    s.dispatchBoot cmdS = .next s.bootSBody.endDispatch ∧ s.dispatchBoot cmdI = .next s.bootIBody.endDispatch ∧
    s.dispatchBoot cmdW = endDispatchOf s.bootWBody ∧ s.dispatchBoot cmdR = .next s.bootRBody.endDispatch := by
  refine ⟨?_, ?_, ?_, ?_⟩ <;> simp [State.dispatchBoot]

theorem State.commit_pending (s : State) (body : State → State) (hh : s.receiverHalted = false)
    (hp : s.phase = .pending) : s.commit body = (body s.clearStrobes).endDispatch := by
  simp [State.commit, hh, hp]

theorem State.commit_error (s : State) (body : State → State) (hh : s.receiverHalted = false)
    (hp : s.phase = .error) : s.commit body = s.clearStrobes.errorPhase := by
  simp [State.commit, hh, hp]

theorem State.commit_other (s : State) (body : State → State)
    (h : s.receiverHalted = true ∨ (s.phase ≠ .pending ∧ s.phase ≠ .error)) : s.commit body = s := by
  unfold State.commit
  split
  · rfl
  · split <;> simp_all

theorem KeepsBytes.commit (k : KeepsBytes P) {Q : State → Prop} (hq : ∀ t, P t → Q t) {s : State} (h : P s)
    (body : State → State)
    (hb : P s.clearStrobes → s.receiverHalted = false → s.phase = .pending → Q (body s.clearStrobes).endDispatch) :
    Q (s.commit body) := by
  unfold State.commit
  split
  · exact hq _ h
  · next hh =>
    simp only [Bool.not_eq_true] at hh
    split
    · next hp => exact hb (k.clearStrobes h) hh hp
    · next hp => exact hq _ (k.error _ (k.clearStrobes h) hh hp)
    · exact hq _ h

/-- What the byte rules keep holds after a frame, up to the frame's own effect in `Pending`. -/
theorem KeepsBytes.runFrame (k : KeepsBytes P) {Q : State → Prop} (hq : ∀ t, P t → Q t) (frame : List Byte)
    {body : State → State} {s t : State} (h : P s)
    (hb : ∀ r : State, P r → r.receiverHalted = false → r.phase = .pending → Q (body r).endDispatch)
    (hr : runFrame frame body s = .next t) : Q t := by
  simp only [Machine.runFrame, Host.Outcome.next.injEq] at hr
  subst hr
  split
  · exact k.commit hq (k.receive frame h) body fun h' hh hp => hb _ h' hh hp
  · exact hq _ (k.withRxq h _)

/-- The same for a frame of the boot variant, its dispatch given. -/
theorem KeepsBytes.runBootFrame (k : KeepsBytes P) {Q : State → Prop} (hq : ∀ t, P t → Q t) (frame : List Byte)
    {dispatch : State → Result} {s t : State} (h : P s)
    (hb : ∀ r u : State, P r → r.receiverHalted = false → r.phase = .pending → dispatch r = .next u → Q u)
    (hr : runBootFrame frame dispatch s = .next t) : Q t := by
  unfold Machine.runBootFrame at hr
  split at hr
  · have h' := k.receive frame h
    split at hr
    · next hc =>
      simp only [Bool.and_eq_true, Bool.not_eq_true', beq_iff_eq] at hc
      exact hb _ _ (k.clearStrobes h') hc.1 hc.2 hr
    · next hc =>
      simp only [Host.Outcome.next.injEq] at hr
      subst hr
      refine k.commit hq h' _ fun _ hh hp => ?_
      simp [hh, hp] at hc
  · simp only [Host.Outcome.next.injEq] at hr
    subst hr
    exact hq _ (k.withRxq h _)

/-- A frame of a runtime command. -/
theorem KeepsReceiver.runCommand (k : KeepsReceiver P) (frame : List Byte) {body : State → State} (op : Byte)
    (hop : isCommand op = true) (hb : ∀ s : State, s.dispatchRuntime op = body s) {s t : State} (h : P s)
    (hr : runFrame frame body s = .next t) : P t :=
  k.runFrame (fun _ h => h) frame h (fun r h' hh hp => hb r ▸ k.command r op h' hh hp hop) hr

/-- A frame of a boot request. -/
theorem KeepsReceiver.runRequest (k : KeepsReceiver P) (frame : List Byte) {body : State → State} (c : Byte)
    (hb : ∀ s : State, s.dispatchBoot c = .next (body s).endDispatch) {s t : State} (h : P s)
    (hr : runFrame frame body s = .next t) : P t :=
  k.runFrame (fun _ h => h) frame h (fun r h' hh hp => k.request r _ c h' hh hp (hb r)) hr

/-- A frame of a boot request whose dispatch may have no successor. -/
theorem KeepsReceiver.runBoot (k : KeepsReceiver P) (frame : List Byte) {dispatch : State → Result}
    (hd : ∀ s : State, ∃ c, dispatch s = s.dispatchBoot c) {s t : State} (h : P s)
    (hr : runBootFrame frame dispatch s = .next t) : P t :=
  k.runBootFrame (fun _ h => h) frame h (fun r u h' hh hp hu => (hd r).elim fun c hc => k.request r u c h' hh hp (hc ▸ hu)) hr

end

/-! ## The frame head -/

/-- The two sync bytes take a receiver at a frame boundary to `Awaiting` (R161, R162). -/
theorem State.feed_sync (s : State) (bytes : List Byte) (hs : s.ready = true) :
    s.feed (sync :: sync :: bytes) =
      State.feed { s with wdt := 0, rxPop := true, acc := s.acc + 0xFF + 0xFF, phase := .awaiting } bytes := by
  simp only [State.ready, Bool.and_eq_true, Bool.not_eq_true', beq_iff_eq] at hs
  obtain ⟨⟨⟨hf, hst⟩, hp⟩, hh⟩ := hs
  cases s
  simp only at hf hst hp hh
  subst hf hst hp hh
  simp [State.feed, State.takesByte, State.receiverHalted, Phase.consumes, State.consume, State.byteRule,
    State.rxSyncing]

/-- The states of a receiver that is not on the way to `Pending`. -/
def State.discarding (s : State) : Prop :=
  (s.phase = .getAddress ∧ isCommand s.opcode = false) ∨ s.phase = .eating ∨ s.phase = .finished

theorem State.discarding_consume (s : State) (b : Byte) (h : s.discarding) : (s.consume b).discarding := by
  rcases h with ⟨hp, ho⟩ | hp | hp
  · simp only [State.consume, State.byteRule, hp, State.rxGetAddress, ho, Bool.not_false, if_true]
    split
    · exact .inr (.inl rfl)
    · exact .inl ⟨rfl, ho⟩
  · simp only [State.consume, State.byteRule, hp, State.rxEating]
    split
    · exact .inr (.inl rfl)
    · split
      · exact .inr (.inr rfl)
      · exact .inr (.inl rfl)
  · simp only [State.consume, State.byteRule, hp]
    exact .inr (.inr rfl)

theorem State.discarding_feed (bytes : List Byte) {s : State} (h : s.discarding) : (s.feed bytes).1.discarding := by
  induction bytes generalizing s with
  | nil => exact h
  | cons b bs ih =>
    rw [State.feed]
    split
    · exact ih (State.discarding_consume s b h)
    · exact h

/-- A frame whose opcode byte is no command never reaches `Pending` or `Error` (R165, R166). -/
theorem State.receive_discarded (s : State) (op : Byte) (rest : List Byte) (hs : s.ready = true)
    (hop : isCommand op = false) :
    (s.receive (sync :: sync :: op :: rest)).phase ≠ .pending ∧
    (s.receive (sync :: sync :: op :: rest)).phase ≠ .error := by
  have hd : (s.clearStrobes.feed (sync :: sync :: op :: rest)).1.discarding := by
    rw [State.feed_sync _ _ (by simpa [State.ready] using hs), State.feed]
    split
    · refine State.discarding_feed rest ?_
      simp only [State.consume, State.byteRule, State.rxAwaiting]
      split
      · exact .inl ⟨rfl, hop⟩
      · exact .inr (.inr rfl)
    · next ht =>
      simp only [State.ready, Bool.and_eq_true, Bool.not_eq_true', beq_iff_eq] at hs
      simp [State.takesByte, State.receiverHalted, Phase.consumes, hs] at ht
  simp only [State.receive, State.unread_phase]
  rcases hd with ⟨hp, -⟩ | hp | hp <;> rw [hp] <;> exact ⟨by decide, by decide⟩

/-- A frame that is no command's has no effect in `Pending`. -/
theorem runFrame_discarded (s : State) (op : Byte) (rest : List Byte) (body : State → State)
    (hop : isCommand op = false) :
    runFrame (sync :: sync :: op :: rest) body s =
      .next (if s.ready then s.receive (sync :: sync :: op :: rest) else s.unread (sync :: sync :: op :: rest)) := by
  unfold runFrame
  by_cases hs : s.ready = true
  · simp only [hs, if_true]
    rw [State.commit_other _ _ (.inr (State.receive_discarded s op rest hs hop))]
  · simp [hs]

section
variable {P : State → Prop}

theorem KeepsReceiver.runDiscarded (k : KeepsReceiver P) (op : Byte) (rest : List Byte) (body : State → State)
    (hop : isCommand op = false) {s t : State} (h : P s)
    (hr : runFrame (sync :: sync :: op :: rest) body s = .next t) : P t := by
  rw [runFrame_discarded s op rest body hop, Host.Outcome.next.injEq] at hr
  subst hr
  split
  · exact k.receive _ h
  · exact k.withRxq h _

/-- What every rule keeps, every instruction keeps. -/
theorem KeepsReceiver.exec (k : KeepsReceiver P) (i : Instr) {s t : State} (h : P s) (hr : exec i s = .next t) : P t := by
  cases i with
  | reqdata a c => exact k.runCommand _ opReqdata rfl (fun s => s.dispatchRuntime_eq.1) h hr
  | setv0 a p c => exact k.runCommand _ opSetv0 rfl (fun s => s.dispatchRuntime_eq.2.1) h hr
  | setv1 a p c => exact k.runCommand _ opSetv1 rfl (fun s => s.dispatchRuntime_eq.2.2.1) h hr
  | ping a c => exact k.runCommand _ opPing rfl (fun s => s.dispatchRuntime_eq.2.2.2.1) h hr
  | setlimit a v c => exact k.runCommand _ opSetlimit rfl (fun s => s.dispatchRuntime_eq.2.2.2.2.1) h hr
  | setid a v c => exact k.runCommand _ opSetid rfl (fun s => s.dispatchRuntime_eq.2.2.2.2.2.1) h hr
  | config a f c => exact k.runCommand _ opConfig rfl (fun s => s.dispatchRuntime_eq.2.2.2.2.2.2.1) h hr
  | sensor a v c => exact k.runCommand _ opSensor rfl (fun s => s.dispatchRuntime_eq.2.2.2.2.2.2.2.1) h hr
  | raw a cmd payload c =>
    simp only [Machine.exec, execRaw] at hr
    split at hr
    · exact k.runCommand _ opRaw rfl (fun s => s.dispatchRuntime_eq.2.2.2.2.2.2.2.2) h hr
    · exact k.runBoot _ (fun s => ⟨_, rfl⟩) h hr
  | pingR a c => exact k.runDiscarded opPingR _ _ rfl h hr
  | setidR a c => exact k.runDiscarded opSetidR _ _ rfl h hr
  | dataR a w0 w1 w2 w3 w4 c => exact k.runDiscarded opDataR _ _ rfl h hr
  | sensorR a x y z c => exact k.runDiscarded opSensorR _ _ rfl h hr
  | rawR a c => exact k.runDiscarded opRawR _ _ rfl h hr
  | bS a payload c =>
    simp only [Machine.exec, execBS] at hr
    split at hr
    · exact k.runCommand _ opRaw rfl (fun s => s.dispatchRuntime_eq.2.2.2.2.2.2.2.2) h hr
    · exact k.runRequest _ cmdS (fun s => s.dispatchBoot_eq.1) h hr
  | bI a payload c =>
    simp only [Machine.exec, execBI] at hr
    split at hr
    · exact k.runCommand _ opRaw rfl (fun s => s.dispatchRuntime_eq.2.2.2.2.2.2.2.2) h hr
    · exact k.runRequest _ cmdI (fun s => s.dispatchBoot_eq.2.1) h hr
  | bW a payload c =>
    simp only [Machine.exec, execBW] at hr
    split at hr
    · exact k.runCommand _ opRaw rfl (fun s => s.dispatchRuntime_eq.2.2.2.2.2.2.2.2) h hr
    · exact k.runBoot _ (fun s => ⟨cmdW, s.dispatchBoot_eq.2.2.1.symm⟩) h hr
  | bR a payload c =>
    simp only [Machine.exec, execBR] at hr
    split at hr
    · exact k.runCommand _ opRaw rfl (fun s => s.dispatchRuntime_eq.2.2.2.2.2.2.2.2) h hr
    · exact k.runRequest _ cmdR (fun s => s.dispatchBoot_eq.2.2.2) h hr
  | bY c => exact k.runDiscarded statusY _ _ rfl h hr
  | bN c => exact k.runDiscarded statusN _ _ rfl h hr

/-- What every rule keeps, a service step keeps. -/
theorem KeepsReceiver.serviceStep (k : KeepsReceiver P) {s t : State} (h : P s) (hr : s.serviceStep = .next t) : P t := by
  have hbyte : s.receiverHalted = false → s.phase.consumes = true → s.bytePhase = .next t → P t := by
    intro hh hc hr
    unfold State.bytePhase at hr
    split at hr
    · simp only [Host.Outcome.next.injEq] at hr
      subst hr
      exact k.idle s h hh hc
    · split at hr
      · simp at hr
      · simp only [Host.Outcome.next.injEq] at hr
        subst hr
        refine k.consume (k.withRxq h _) ?_ _
        simp only [State.takesByte, Bool.and_eq_true, Bool.not_eq_true']
        exact ⟨hh, hc⟩
  unfold State.serviceStep at hr
  split at hr
  · simp only [Host.Outcome.next.injEq] at hr
    exact hr ▸ h
  · next hh =>
    simp only [Bool.not_eq_true] at hh
    split at hr
    iterate 6 next hp => exact hbyte hh (by rw [hp]; rfl) hr
    · next hp =>
      unfold State.pendingPhase at hr
      split at hr
      · simp only [Host.Outcome.next.injEq] at hr
        subst hr
        by_cases hc : isCommand s.opcode = true
        · exact k.command s _ h hh hp hc
        · rw [State.dispatchRuntime_unknown s (by simpa using hc)]
          exact k.unknown s h hh hp (.inl (by simpa using hc))
      · next hv =>
        split at hr
        · exact k.request s t _ h hh hp hr
        · next ho =>
          simp only [Host.Outcome.next.injEq] at hr
          subst hr
          exact k.unknown s h hh hp (.inr ⟨hv, ho⟩)
    · next hp =>
      simp only [Host.Outcome.next.injEq] at hr
      exact hr ▸ k.finished s h hh hp
    · next hp =>
      simp only [Host.Outcome.next.injEq] at hr
      exact hr ▸ k.error s h hh hp
    · next n hp =>
      simp only [Host.Outcome.next.injEq] at hr
      exact hr ▸ k.illegal s n h hh hp

/-- What every rule keeps, a step keeps. -/
theorem Keeps.step (k : Keeps P) {s t : State} (h : P s) (hr : step s = .next t) : P t := by
  have hb := k.beginStep h
  unfold Machine.step State.onEvent at hr
  split at hr
  · exact k.serviceStep hb hr
  · simp only [Host.Outcome.next.injEq] at hr
    exact hr ▸ k.tick _ hb
  · unfold State.burst at hr
    split at hr
    · exact k.exec _ (k.withRxq hb _) hr
    · exact k.serviceStep hb hr
  · simp only [Host.Outcome.next.injEq] at hr
    subst hr
    unfold State.deliver
    split
    · exact k.withRxq hb _
    · exact hb
  · simp only [Host.Outcome.next.injEq] at hr
    exact hr ▸ k.reset _ _ hb

end

end Sys2Proof.Machine
end

