-- ==== Sys2Proof/Laws/Receiver.lean ====
section
/-! SUPPORT. What the receiver does with the parts of a frame, each part said once: head, payload, checksum, eaten
bytes. -/

namespace Sys2Proof.Machine

/-- A byte rule changes only the receiver's own registers and `RXBUF`, or halts the block. -/
theorem State.byteRule_frame (s : State) (b : Byte) :
    ∃ ph hs op ad co ex ea ed ac lc m f fc d r ta,
      s.byteRule b = { s with
        phase := ph
        halfSynced := hs
        opcode := op
        addr := ad
        count := co
        expected := ex
        eat := ea
        eatDyn := ed
        acc := ac
        lastCause := lc
        rxbuf := m
        fatal := f
        fatalCode := fc
        de := d
        re := r
        taState := ta } ∧
      (f = s.fatal ∧ fc = s.fatalCode ∧ d = s.de ∧ r = s.re ∧ ta = s.taState ∨
        f = true ∧ fc = .illegalState ∧ d = false ∧ r = true ∧ ta = .rx) := by
  unfold State.byteRule
  split
  · unfold State.rxSyncing
    repeat' split
    all_goals exact ⟨_, _, _, _, _, _, _, _, _, _, _, _, _, _, _, _, rfl, .inl ⟨rfl, rfl, rfl, rfl, rfl⟩⟩
  · unfold State.rxAwaiting
    repeat' split
    all_goals exact ⟨_, _, _, _, _, _, _, _, _, _, _, _, _, _, _, _, rfl, .inl ⟨rfl, rfl, rfl, rfl, rfl⟩⟩
  · unfold State.rxGetAddress
    repeat' split
    all_goals first
      | exact ⟨_, _, _, _, _, _, _, _, _, _, _, _, _, _, _, _, rfl, .inl ⟨rfl, rfl, rfl, rfl, rfl⟩⟩
      | exact ⟨_, _, _, _, _, _, _, _, _, _, _, _, _, _, _, _, rfl, .inr ⟨rfl, rfl, rfl, rfl, rfl⟩⟩
  · unfold State.rxReading State.rxPayloadEnd
    simp only
    repeat' split
    all_goals exact ⟨_, _, _, _, _, _, _, _, _, _, _, _, _, _, _, _, rfl, .inl ⟨rfl, rfl, rfl, rfl, rfl⟩⟩
  · unfold State.rxEating
    repeat' split
    all_goals exact ⟨_, _, _, _, _, _, _, _, _, _, _, _, _, _, _, _, rfl, .inl ⟨rfl, rfl, rfl, rfl, rfl⟩⟩
  · unfold State.rxVerifying
    simp only
    repeat' split
    all_goals exact ⟨_, _, _, _, _, _, _, _, _, _, _, _, _, _, _, _, rfl, .inl ⟨rfl, rfl, rfl, rfl, rfl⟩⟩
  all_goals exact ⟨_, _, _, _, _, _, _, _, _, _, _, _, _, _, _, _, rfl, .inl ⟨rfl, rfl, rfl, rfl, rfl⟩⟩

theorem State.feed_takes (s : State) (b : Byte) (bs : List Byte) (h : s.takesByte = true) :
    s.feed (b :: bs) = (s.consume b).feed bs := by
  rw [State.feed, if_pos h]

theorem State.feed_stops (s : State) (bytes : List Byte) (h : s.takesByte = false) : s.feed bytes = (s, bytes) := by
  cases bytes with
  | nil => rfl
  | cons b bs => rw [State.feed, if_neg (by simp [h])]

/-- A receiver that runs takes a byte in the phases that consume one (R32, R160). -/
theorem State.takesByte_of (s : State) (hh : s.receiverHalted = false) (hc : s.phase.consumes = true) :
    s.takesByte = true := by simp [State.takesByte, hh, hc]

theorem State.ready_running {s : State} (h : s.ready = true) :
    s.receiverHalted = false ∧ s.phase = .syncing ∧ s.halfSynced = false := by
  simp only [State.ready, Bool.and_eq_true, Bool.not_eq_true', beq_iff_eq] at h
  exact ⟨by simp [State.receiverHalted, h.1.1.1, h.1.1.2], h.1.2, h.2⟩

/-- The sync pair and a known opcode take a receiver at a frame boundary to `GetAddress` (R161, R162, R164). -/
theorem State.feed_head (s : State) (op : Byte) (bytes : List Byte) (hs : s.ready = true)
    (hk : isKnown s.variant op = true) :
    s.feed (sync :: sync :: op :: bytes) =
      State.feed { s with
        wdt := 0
        rxPop := true
        acc := s.acc + 0xFF + 0xFF + op
        opcode := op
        phase := .getAddress } bytes := by
  obtain ⟨hh, -, -⟩ := State.ready_running hs
  rw [State.feed_sync s _ hs]
  refine (State.feed_takes _ _ _ (State.takesByte_of _ (by exact hh) (by rfl))).trans ?_
  simp [State.consume, State.byteRule, State.rxAwaiting, hk]

/-- The sync pair and an unknown opcode drop the frame; what follows is not consumed (R161, R162, R165). -/
theorem State.feed_unknown (s : State) (op : Byte) (bytes : List Byte) (hs : s.ready = true)
    (hk : isKnown s.variant op = false) :
    s.feed (sync :: sync :: op :: bytes) =
      ({ s with
        wdt := 0
        rxPop := true
        acc := s.acc + 0xFF + 0xFF
        opcode := op
        phase := .finished }, bytes) := by
  obtain ⟨hh, -, -⟩ := State.ready_running hs
  rw [State.feed_sync s _ hs]
  refine (State.feed_takes _ _ _ (State.takesByte_of _ (by exact hh) (by rfl))).trans ?_
  simp only [State.consume, State.byteRule, State.rxAwaiting, hk, Bool.false_eq_true, if_false]
  exact State.feed_stops _ _ (by simp [State.takesByte, Phase.consumes])

/-- The bytes of a frame being eaten, the last one ending it (R174). -/
theorem State.feed_eating (bytes rest : List Byte) (s : State) (hh : s.receiverHalted = false) (hp : s.phase = .eating)
    (hd : s.eatDyn = false) (hl : s.eat.toNat = bytes.length) (hne : bytes ≠ []) :
    s.feed (bytes ++ rest) =
      ({ s with
        wdt := 0
        rxPop := true
        eat := 0
        phase := .finished }, rest) := by
  induction bytes generalizing s with
  | nil => exact absurd rfl hne
  | cons b bs ih =>
    simp only [List.length_cons] at hl
    rw [List.cons_append, State.feed_takes _ _ _ (State.takesByte_of s hh (by rw [hp]; rfl))]
    have h1 : (s.eat - 1).toNat = bs.length := by
      rw [BitVec.toNat_sub_of_le (by rw [BitVec.le_def]; simp; omega)]; simp [hl]
    by_cases hb : bs = []
    · subst hb
      have h0 : s.eat - 1 = 0 := by apply BitVec.eq_of_toNat_eq; simpa using h1
      simp only [State.consume, State.byteRule, hp, State.rxEating, hd, Bool.false_eq_true, if_false, h0, if_true]
      exact State.feed_stops _ _ (by simp [State.takesByte, Phase.consumes])
    · have h0 : ¬ (s.eat - 1 = 0) := by
        intro h
        rw [h] at h1
        exact hb (List.length_eq_zero_iff.mp h1.symm)
      simp only [State.consume, State.byteRule, hp, State.rxEating, hd, Bool.false_eq_true, if_false, h0]
      exact ih _ (by exact hh) rfl rfl h1 hb

/-- Payload bytes up to the last one expected, the self-described length byte aside (R171, R173). -/
theorem State.feed_reading (bytes rest : List Byte) (s : State) (hh : s.receiverHalted = false)
    (hp : s.phase = .reading) (hl : s.count.toNat + bytes.length = s.expected.toNat) (hne : bytes ≠ [])
    (hr : s.opcode = opRaw → s.count ≠ 0) :
    s.feed (bytes ++ rest) =
      State.feed { s with
        wdt := 0
        rxPop := true
        rxbuf := Memory.writeBytes (unlisted s.par .rxbuf) s.rxbuf s.count.toNat bytes
        count := s.expected
        acc := s.acc + sumBytes bytes
        phase := .verifying } rest := by
  induction bytes generalizing s with
  | nil => exact absurd rfl hne
  | cons b bs ih =>
    simp only [List.length_cons] at hl
    rw [List.cons_append, State.feed_takes _ _ _ (State.takesByte_of s hh (by rw [hp]; rfl))]
    have hlt := s.expected.isLt
    have h1 : (s.count + 1).toNat = s.count.toNat + 1 := by
      rw [BitVec.toNat_add]; simp; omega
    have hn1 : ¬ (s.opcode = opRaw ∧ s.count + 1 = 1) := by
      rintro ⟨ho, hc⟩
      refine hr ho ?_
      apply BitVec.eq_of_toNat_eq
      have := congrArg BitVec.toNat hc
      rw [h1] at this
      simpa using this
    simp only [State.consume, State.byteRule, hp, State.rxReading, State.store, State.setMemory, State.memory, hn1,
      if_false, State.rxPayloadEnd]
    by_cases hb : bs = []
    · subst hb
      have he : s.count + 1 = s.expected := by
        apply BitVec.eq_of_toNat_eq; rw [h1]; simpa using hl
      simp only [he, if_true, List.nil_append, Memory.writeBytes, sumBytes, add_zero]
    · have he : ¬ (s.count + 1 = s.expected) := by
        intro h
        have := congrArg BitVec.toNat h
        rw [h1] at this
        have : bs.length ≠ 0 := fun h => hb (List.length_eq_zero_iff.mp h)
        omega
      simp only [he, if_false]
      refine (ih _ (by exact hh) (by rfl) (by simp only [h1]; omega) hb ?_).trans ?_
      · intro _ h
        have := congrArg BitVec.toNat h
        rw [show (s.count + 1).toNat = s.count.toNat + 1 from h1] at this
        simp at this
      · simp only [h1, Memory.writeBytes, sumBytes, BitVec.add_assoc]

/-! ## The address filter -/

/-- No opcode is both a command and a response (R130). -/
theorem isResponse_of_isCommand {op : Byte} (h : isCommand op = true) : isResponse op = false := by
  simp only [isCommand, Bool.or_eq_true, beq_iff_eq] at h
  rcases h with (((((((h | h) | h) | h) | h) | h) | h) | h) | h <;> subst h <;> rfl

theorem isCommand_of_isResponse {op : Byte} (h : isResponse op = true) : isCommand op = false := by
  simp only [isResponse, Bool.or_eq_true, beq_iff_eq] at h
  rcases h with (((h | h) | h) | h) | h <;> subst h <;> rfl

/-- An identity is at most 127 (R127). -/
theorem State.ownByte_le (s : State) : s.ownByte.toNat ≤ 127 := by
  have := s.ownId.isLt
  rw [State.ownByte, BitVec.zeroExtend, BitVec.toNat_setWidth_of_le (by decide)]
  omega

/-- An own-addressed command of fixed length, up to its checksum byte (R168, R169, R171). -/
theorem State.feed_own_fixed (s : State) (op a : Byte) (p rest : List Byte) (hs : s.ready = true)
    (hk : isKnown s.variant op = true) (hc : isCommand op = true) (hr : op ≠ opRaw) (ha : a = s.ownByte)
    (hl : p.length = (payloadLen op).toNat) :
    s.feed (sync :: sync :: op :: a :: (p ++ rest)) =
      State.feed { s with
        wdt := 0
        rxPop := true
        acc := s.acc + 0xFF + 0xFF + op + a + sumBytes p
        opcode := op
        addr := a
        count := if p = [] then s.count else BitVec.ofNat 9 p.length
        expected := if p = [] then s.expected else BitVec.ofNat 9 p.length
        rxbuf := s.rxFilled p
        phase := .verifying } rest := by
  obtain ⟨hh, -, -⟩ := State.ready_running hs
  have hlt : ¬ 127 < (BitVec.zeroExtend 8 s.ownId).toNat := Nat.not_lt.mpr s.ownByte_le
  rw [State.feed_head s op _ hs hk]
  refine (State.feed_takes _ _ _ (State.takesByte_of _ (by exact hh) (by rfl))).trans ?_
  subst ha
  simp only [State.consume, State.byteRule, State.rxGetAddress, isResponse_of_isCommand hc, hc, Bool.not_true,
    Bool.false_eq_true, if_false, hlt, State.ownByte]
  by_cases hp : payloadLen op = 0
  · have hnil : p = [] := by
      apply List.length_eq_zero_iff.mp
      rw [hl, hp]
      rfl
    subst hnil
    simp [hp, State.rxFilled, Memory.writeBytes, sumBytes]
  · have hne : p ≠ [] := by
      rintro rfl
      exact hp (BitVec.eq_of_toNat_eq (by simpa using hl.symm))
    simp only [hp, if_true, if_false, hne]
    refine (State.feed_reading p rest _ (by exact hh) (by rfl) (by simpa using hl) hne
      (fun h => absurd h hr)).trans ?_
    have he : payloadLen op = BitVec.ofNat 9 p.length := by
      apply BitVec.eq_of_toNat_eq
      rw [hl]
      simp
    simp only [he, State.rxFilled]
    rfl

/-- An own-addressed self-describing frame that fits the receive buffer, up to its checksum byte (R169, R171, R172). -/
theorem State.feed_own_self (s : State) (a c : Byte) (p rest : List Byte) (hs : s.ready = true)
    (ha : a = s.ownByte) (hl : p.length ≤ 255) (hfit : p.length + 2 ≤ s.par.rxBufCap) :
    s.feed (sync :: sync :: opRaw :: a :: BitVec.ofNat 8 p.length :: c :: (p ++ rest)) =
      State.feed { s with
        wdt := 0
        rxPop := true
        acc := s.acc + 0xFF + 0xFF + opRaw + a + sumBytes (BitVec.ofNat 8 p.length :: c :: p)
        opcode := opRaw
        addr := a
        count := BitVec.ofNat 9 (p.length + 2)
        expected := BitVec.ofNat 9 (p.length + 2)
        rxbuf := s.rxFilled (BitVec.ofNat 8 p.length :: c :: p)
        phase := .verifying } rest := by
  obtain ⟨hh, -, -⟩ := State.ready_running hs
  have hlt : ¬ 127 < (BitVec.zeroExtend 8 s.ownId).toNat := Nat.not_lt.mpr s.ownByte_le
  rw [State.feed_head s opRaw _ hs (by cases s.variant <;> rfl)]
  refine (State.feed_takes _ _ _ (State.takesByte_of _ (by exact hh) (by rfl))).trans ?_
  subst ha
  have hlen : (BitVec.ofNat 8 p.length).toNat = p.length := by simp; omega
  have hpl : payloadLen opRaw = 1 := by rfl
  have hne : ¬ (BitVec.ofNat 9 (1 + lenExtra + p.length) = 1) := by
    intro h
    have := congrArg BitVec.toNat h
    simp [lenExtra] at this
    omega
  simp only [State.consume, State.byteRule, State.rxGetAddress, show isResponse opRaw = false from rfl,
    show isCommand opRaw = true from rfl, Bool.not_true, Bool.false_eq_true, if_false,
    hlt, State.ownByte, hpl, if_true, show ¬ ((1 : BitVec 9) = 0) by decide]
  refine (State.feed_takes _ _ _ (State.takesByte_of _ (by exact hh) (by rfl))).trans ?_
  simp only [State.consume, State.byteRule, State.rxReading, State.store, State.setMemory, State.memory,
    show (0 : BitVec 9) + 1 = 1 from rfl, and_self, if_true, hlen, State.rxPayloadEnd,
    show ¬ (s.par.rxBufCap < 1 + lenExtra + p.length) from by simp only [lenExtra]; omega, if_false,
    show ¬ ((1 : BitVec 9) = BitVec.ofNat 9 (1 + lenExtra + p.length)) from fun h => hne h.symm]
  refine (State.feed_reading (c :: p) rest _ (by exact hh) (by rfl) ?_ (by simp) (fun _ => by simp)).trans ?_
  · simp [lenExtra]; omega
  · simp only [State.rxFilled, Memory.writeBytes, sumBytes, BitVec.add_assoc, lenExtra, Nat.zero_add,
      Nat.add_comm (1 + 1) p.length, Nat.reduceAdd]
    rfl

/-- A response frame is eaten whole (R166, R174). -/
theorem State.feed_response (s : State) (op a : Byte) (p rest : List Byte) (hs : s.ready = true)
    (hr : isResponse op = true) (hl : p.length = (eatResp op).toNat) :
    s.feed (sync :: sync :: op :: a :: (p ++ rest)) =
      ({ s with
        wdt := 0
        rxPop := true
        acc := s.acc + 0xFF + 0xFF + op + a
        opcode := op
        addr := a
        eat := 0
        eatDyn := false
        phase := .finished }, rest) := by
  obtain ⟨hh, -, -⟩ := State.ready_running hs
  have hne : p ≠ [] := by
    rintro rfl
    simp only [isResponse, Bool.or_eq_true, beq_iff_eq] at hr
    rcases hr with (((h | h) | h) | h) | h <;> subst h <;> simp [eatResp] at hl
  rw [State.feed_head s op _ hs (by cases s.variant <;> simp [isKnown, hr])]
  refine (State.feed_takes _ _ _ (State.takesByte_of _ (by exact hh) (by rfl))).trans ?_
  simp only [State.consume, State.byteRule, State.rxGetAddress, hr, if_true]
  exact State.feed_eating p rest _ (by exact hh) (by rfl) (by rfl) hl.symm hne

/-- A command of fixed length for another device is eaten whole (R170, R174). -/
theorem State.feed_foreign_fixed (s : State) (op a : Byte) (p rest : List Byte) (hs : s.ready = true)
    (hk : isKnown s.variant op = true) (hc : isCommand op = true) (hr : op ≠ opRaw) (hle : a.toNat ≤ 127)
    (ha : a ≠ s.ownByte) (hl : p.length = (eatCmd op).toNat) :
    s.feed (sync :: sync :: op :: a :: (p ++ rest)) =
      ({ s with
        wdt := 0
        rxPop := true
        acc := s.acc + 0xFF + 0xFF + op
        opcode := op
        addr := a
        eat := 0
        eatDyn := false
        phase := .finished }, rest) := by
  obtain ⟨hh, -, -⟩ := State.ready_running hs
  have hne : p ≠ [] := by
    rintro rfl
    simp only [isCommand, Bool.or_eq_true, beq_iff_eq] at hc
    rcases hc with (((((((h | h) | h) | h) | h) | h) | h) | h) | h <;> subst h <;>
      simp [eatCmd, payloadLen] at hl
  rw [State.feed_head s op _ hs hk]
  refine (State.feed_takes _ _ _ (State.takesByte_of _ (by exact hh) (by rfl))).trans ?_
  simp only [State.ownByte] at ha
  simp only [State.consume, State.byteRule, State.rxGetAddress, isResponse_of_isCommand hc, hc, Bool.not_true,
    Bool.false_eq_true, if_false, show ¬ 127 < a.toNat from by omega, State.ownByte, ha, hr]
  exact State.feed_eating p rest _ (by exact hh) (by rfl) (by rfl) hl.symm hne

/-- A self-describing frame for another device is eaten whole, by its own length (R170, R174, R175). -/
theorem State.feed_foreign_self (s : State) (a : Byte) (p rest : List Byte) (l : Byte) (hs : s.ready = true)
    (hle : a.toNat ≤ 127) (ha : a ≠ s.ownByte) (hl : p.length = l.toNat + 2) :
    s.feed (sync :: sync :: opRaw :: a :: l :: (p ++ rest)) =
      ({ s with
        wdt := 0
        rxPop := true
        acc := s.acc + 0xFF + 0xFF + opRaw
        opcode := opRaw
        addr := a
        eat := 0
        eatDyn := false
        phase := .finished }, rest) := by
  obtain ⟨hh, -, -⟩ := State.ready_running hs
  rw [State.feed_head s opRaw _ hs (by cases s.variant <;> rfl)]
  refine (State.feed_takes _ _ _ (State.takesByte_of _ (by exact hh) (by rfl))).trans ?_
  simp only [State.ownByte] at ha
  simp only [State.consume, State.byteRule, State.rxGetAddress, show isResponse opRaw = false from rfl,
    show isCommand opRaw = true from rfl, Bool.not_true, Bool.false_eq_true, if_false,
    show ¬ 127 < a.toNat from by omega, State.ownByte, ha, if_true]
  refine (State.feed_takes _ _ _ (State.takesByte_of _ (by exact hh) (by rfl))).trans ?_
  simp only [State.consume, State.byteRule, State.rxEating, if_true]
  refine State.feed_eating p rest _ (by exact hh) (by rfl) (by rfl) ?_ (by rintro rfl; simp at hl)
  have := l.isLt
  simp [lenExtra]
  omega

/-! ## Whole frames -/

/-- The checksum byte of a frame whose sum is right and whose operands are in range (R176). -/
theorem State.feed_checksum_good (s : State) (c : Byte) (hh : s.receiverHalted = false) (hp : s.phase = .verifying)
    (hc : s.acc + c = 0) (hi : s.variant = .runtime → s.opcode = opSetid → (s.rxByte 0).toNat < 128) :
    s.feed [c] = ({ s with
      wdt := 0
      rxPop := true
      acc := 0
      phase := .pending }, []) := by
  rw [State.feed_takes _ _ _ (State.takesByte_of _ hh (by rw [hp]; rfl))]
  have hn : ¬ (s.variant = .runtime ∧ s.opcode = opSetid ∧ 128 ≤ (s.rxByte 0).toNat) := by
    rintro ⟨h1, h2, h3⟩
    have := hi h1 h2
    omega
  simp only [State.consume, State.byteRule, hp, State.rxVerifying, hc, ne_eq, not_true_eq_false, if_false]
  rw [if_neg (by exact hn)]
  rfl

/-- The checksum byte of a frame whose sum is wrong (R176). -/
theorem State.feed_checksum_bad (s : State) (c : Byte) (hh : s.receiverHalted = false) (hp : s.phase = .verifying)
    (hc : s.acc + c ≠ 0) :
    s.feed [c] = ({ s with
      wdt := 0
      rxPop := true
      acc := s.acc + c
      lastCause := .badChecksum
      phase := .error }, []) := by
  rw [State.feed_takes _ _ _ (State.takesByte_of _ hh (by rw [hp]; rfl))]
  simp only [State.consume, State.byteRule, hp, State.rxVerifying, hc, ne_eq, not_false_eq_true, if_true]
  rfl

/-- The checksum byte of a set-identity frame whose sum is right and whose value is out of range (R176, R227). -/
theorem State.feed_checksum_idRange (s : State) (c : Byte) (hh : s.receiverHalted = false) (hp : s.phase = .verifying)
    (hc : s.acc + c = 0) (hi : s.variant = .runtime ∧ s.opcode = opSetid ∧ 128 ≤ (s.rxByte 0).toNat) :
    s.feed [c] = ({ s with
      wdt := 0
      rxPop := true
      acc := 0
      lastCause := .idRange
      phase := .error }, []) := by
  rw [State.feed_takes _ _ _ (State.takesByte_of _ hh (by rw [hp]; rfl))]
  simp only [State.consume, State.byteRule, hp, State.rxVerifying, hc, ne_eq, not_true_eq_false, if_false]
  rw [if_pos (by exact hi)]
  rfl

/-- A command whose address byte is out of range; what follows is not consumed (R167). -/
theorem State.feed_addrRange (s : State) (op a : Byte) (bytes : List Byte) (hs : s.ready = true)
    (hk : isKnown s.variant op = true) (hc : isCommand op = true) (ha : 127 < a.toNat) :
    s.feed (sync :: sync :: op :: a :: bytes) =
      ({ s with
        wdt := 0
        rxPop := true
        acc := s.acc + 0xFF + 0xFF + op
        opcode := op
        addr := a
        lastCause := .addrRange
        phase := .error }, bytes) := by
  obtain ⟨hh, -, -⟩ := State.ready_running hs
  rw [State.feed_head s op _ hs hk]
  refine (State.feed_takes _ _ _ (State.takesByte_of _ (by exact hh) (by rfl))).trans ?_
  simp only [State.consume, State.byteRule, State.rxGetAddress, isResponse_of_isCommand hc, hc, Bool.not_true,
    Bool.false_eq_true, if_false, ha, if_true]
  exact State.feed_stops _ _ (by simp [State.takesByte, Phase.consumes, State.raiseFraming])

/-- A self-described length that does not fit the receive buffer; what follows is not consumed (R172). -/
theorem State.feed_lenRange (s : State) (a l : Byte) (bytes : List Byte) (hs : s.ready = true) (ha : a = s.ownByte)
    (hl : s.par.rxBufCap < l.toNat + 2) :
    s.feed (sync :: sync :: opRaw :: a :: l :: bytes) =
      ({ s with
        wdt := 0
        rxPop := true
        acc := s.acc + 0xFF + 0xFF + opRaw + a + l
        opcode := opRaw
        addr := a
        count := 1
        expected := 1
        rxbuf := s.rxFilled [l]
        lastCause := .lenRange
        phase := .error }, bytes) := by
  obtain ⟨hh, -, -⟩ := State.ready_running hs
  have hlt : ¬ 127 < (BitVec.zeroExtend 8 s.ownId).toNat := Nat.not_lt.mpr s.ownByte_le
  rw [State.feed_head s opRaw _ hs (by cases s.variant <;> rfl)]
  refine (State.feed_takes _ _ _ (State.takesByte_of _ (by exact hh) (by rfl))).trans ?_
  subst ha
  have hpl : payloadLen opRaw = 1 := by rfl
  simp only [State.consume, State.byteRule, State.rxGetAddress, show isResponse opRaw = false from rfl,
    show isCommand opRaw = true from rfl, Bool.not_true, Bool.false_eq_true, if_false,
    hlt, State.ownByte, hpl, if_true, show ¬ ((1 : BitVec 9) = 0) by decide]
  refine (State.feed_takes _ _ _ (State.takesByte_of _ (by exact hh) (by rfl))).trans ?_
  simp only [State.consume, State.byteRule, State.rxReading, State.store, State.setMemory, State.memory,
    show (0 : BitVec 9) + 1 = 1 from rfl, and_self, if_true,
    show s.par.rxBufCap < 1 + lenExtra + l.toNat from by simp only [lenExtra]; omega]
  exact State.feed_stops _ _ (by simp [State.takesByte, Phase.consumes, State.raiseFraming])

/-- What the receiver makes of a frame's bytes, and the bytes it leaves (R188). -/
theorem State.receive_of_feed {s t : State} {frame rest : List Byte} (h : s.clearStrobes.feed frame = (t, rest)) :
    s.receive frame = t.unread rest := by
  rw [State.receive, h]

/-- What a frame's bytes can change before the receiver's next step: the receiver's own registers, `RXBUF`, the
receive interface and the pop strobe, or the halt's registers. -/
theorem State.receive_frame (s : State) (frame : List Byte) :
    ∃ ph hs op ad co ex ea ed ac wd lc m f fc d r ta q pop,
      s.receive frame = { s with
        phase := ph
        halfSynced := hs
        opcode := op
        addr := ad
        count := co
        expected := ex
        eat := ea
        eatDyn := ed
        acc := ac
        wdt := wd
        lastCause := lc
        rxbuf := m
        fatal := f
        fatalCode := fc
        de := d
        re := r
        taState := ta
        rxq := q
        rxPop := pop
        txWrite := false
        calls := [] } ∧
      (f = s.fatal ∧ fc = s.fatalCode ∧ d = s.de ∧ r = s.re ∧ ta = s.taState ∨
        f = true ∧ fc = .illegalState ∧ d = false ∧ r = true ∧ ta = .rx) := by
  suffices h : ∀ (bytes : List Byte) (t : State), t.txWrite = false → t.calls = [] →
      ∃ ph hs op ad co ex ea ed ac wd lc m f fc d r ta pop,
      (t.feed bytes).1 = { t with
        phase := ph
        halfSynced := hs
        opcode := op
        addr := ad
        count := co
        expected := ex
        eat := ea
        eatDyn := ed
        acc := ac
        wdt := wd
        lastCause := lc
        rxbuf := m
        fatal := f
        fatalCode := fc
        de := d
        re := r
        taState := ta
        rxPop := pop
        txWrite := false
        calls := [] } ∧
      (f = t.fatal ∧ fc = t.fatalCode ∧ d = t.de ∧ r = t.re ∧ ta = t.taState ∨
        f = true ∧ fc = .illegalState ∧ d = false ∧ r = true ∧ ta = .rx) by
    obtain ⟨ph, hs, op, ad, co, ex, ea, ed, ac, wd, lc, m, f, fc, d, r, ta, pop, he, ho⟩ :=
      h frame s.clearStrobes rfl rfl
    refine ⟨ph, hs, op, ad, co, ex, ea, ed, ac, wd, lc, m, f, fc, d, r, ta,
      (s.clearStrobes.feed frame).2 ++ s.rxq, pop, ?_, ho⟩
    rw [State.receive, he]
    rfl
  intro bytes
  induction bytes with
  | nil =>
    intro t hw hc
    refine ⟨t.phase, t.halfSynced, t.opcode, t.addr, t.count, t.expected, t.eat, t.eatDyn, t.acc, t.wdt, t.lastCause,
      t.rxbuf, t.fatal, t.fatalCode, t.de, t.re, t.taState, t.rxPop, ?_, .inl ⟨rfl, rfl, rfl, rfl, rfl⟩⟩
    cases t
    simp only at hw hc
    subst hw hc
    rfl
  | cons b bs ih =>
    intro t hw hc
    by_cases htake : t.takesByte = true
    · obtain ⟨ph, hs, op, ad, co, ex, ea, ed, ac, lc, m, f, fc, d, r, ta, he, ho⟩ :=
        State.byteRule_frame { t with wdt := 0, rxPop := true } b
      rw [State.feed_takes t b bs htake, State.consume, he]
      obtain ⟨ph', hs', op', ad', co', ex', ea', ed', ac', wd', lc', m', f', fc', d', r', ta', pop', he', ho'⟩ :=
        ih { t with
          wdt := 0
          rxPop := true
          phase := ph
          halfSynced := hs
          opcode := op
          addr := ad
          count := co
          expected := ex
          eat := ea
          eatDyn := ed
          acc := ac
          lastCause := lc
          rxbuf := m
          fatal := f
          fatalCode := fc
          de := d
          re := r
          taState := ta } hw hc
      refine ⟨ph', hs', op', ad', co', ex', ea', ed', ac', wd', lc', m', f', fc', d', r', ta', pop', he', ?_⟩
      rcases ho' with ⟨rfl, rfl, rfl, rfl, rfl⟩ | ho'
      · exact ho
      · exact .inr ho'
    · rw [State.feed_stops t _ (by simpa using htake)]
      refine ⟨t.phase, t.halfSynced, t.opcode, t.addr, t.count, t.expected, t.eat, t.eatDyn, t.acc, t.wdt, t.lastCause,
        t.rxbuf, t.fatal, t.fatalCode, t.de, t.re, t.taState, t.rxPop, ?_, .inl ⟨rfl, rfl, rfl, rfl, rfl⟩⟩
      cases t
      simp only at hw hc
      subst hw hc
      rfl

/-- How a frame ends: it waits, it is received and not committed, it is counted as an error, or its own effect happens. -/
theorem runFrame_cases {frame : List Byte} {body : State → State} {s t : State} (h : runFrame frame body s = .next t) :
    (s.ready = false ∧ t = s.unread frame) ∨
    (s.ready = true ∧ t = s.receive frame) ∨
    (s.ready = true ∧ (s.receive frame).receiverHalted = false ∧ (s.receive frame).phase = .error ∧
      t = (s.receive frame).clearStrobes.errorPhase) ∨
    (s.ready = true ∧ (s.receive frame).receiverHalted = false ∧ (s.receive frame).phase = .pending ∧
      t = (body (s.receive frame).clearStrobes).endDispatch) := by
  simp only [runFrame, Host.Outcome.next.injEq] at h
  subst h
  split
  · next hs =>
    unfold State.commit
    split
    · exact .inr (.inl ⟨hs, rfl⟩)
    · next hh =>
      simp only [Bool.not_eq_true] at hh
      split
      · next hp => exact .inr (.inr (.inr ⟨hs, hh, hp, rfl⟩))
      · next hp => exact .inr (.inr (.inl ⟨hs, hh, hp, rfl⟩))
      · exact .inr (.inl ⟨hs, rfl⟩)
  · next hs => exact .inl ⟨by simpa using hs, rfl⟩

/-- The same for a frame of the boot variant. -/
theorem runBootFrame_cases {frame : List Byte} {dispatch : State → Result} {s : State} {o : Result}
    (h : runBootFrame frame dispatch s = o) :
    (s.ready = false ∧ o = .next (s.unread frame)) ∨
    (s.ready = true ∧ o = .next (s.receive frame)) ∨
    (s.ready = true ∧ (s.receive frame).receiverHalted = false ∧ (s.receive frame).phase = .error ∧
      o = .next (s.receive frame).clearStrobes.errorPhase) ∨
    (s.ready = true ∧ (s.receive frame).receiverHalted = false ∧ (s.receive frame).phase = .pending ∧
      o = dispatch (s.receive frame).clearStrobes) := by
  subst h
  by_cases hs : s.ready = true
  · by_cases hc : (s.receive frame).receiverHalted = false ∧ (s.receive frame).phase = .pending
    · exact .inr (.inr (.inr ⟨hs, hc.1, hc.2, by simp [runBootFrame, hs, hc]⟩))
    · have hb : (!(s.receive frame).receiverHalted && (s.receive frame).phase == .pending) = false := by
        simp only [Bool.and_eq_false_iff, Bool.not_eq_false', beq_eq_false_iff_ne]
        by_cases hh : (s.receive frame).receiverHalted = true
        · exact .inl hh
        · exact .inr fun hp => hc ⟨by simpa using hh, hp⟩
      have ho : runBootFrame frame dispatch s = runFrame frame State.noEffect s := by
        simp [runBootFrame, runFrame, hs, hb]
      rw [ho]
      rcases runFrame_cases (t := if s.ready then (s.receive frame).commit State.noEffect else s.unread frame) rfl with
        ⟨h1, -⟩ | ⟨-, h2⟩ | ⟨-, h2, h3, h4⟩ | ⟨-, h2, h3, -⟩
      · simp [hs] at h1
      · exact .inr (.inl ⟨hs, congrArg _ h2⟩)
      · exact .inr (.inr (.inl ⟨hs, h2, h3, congrArg _ h4⟩))
      · exact absurd ⟨h2, h3⟩ hc
  · exact .inl ⟨by simpa using hs, by simp [runBootFrame, hs]⟩

/-- The sum of a frame that opens with a sync pair, as the accumulator has it before the checksum byte (R178). -/
theorem sumBytes_frame (body : List Byte) (c : Byte) :
    sumBytes (sync :: sync :: (body ++ [c])) = 0xFF + 0xFF + sumBytes body + c := by
  simp only [sumBytes, sumBytes_append, add_zero]
  abel

/-- Receiving a valid own-addressed command of fixed length leaves it in `Pending` (R187). -/
theorem State.receive_own_fixed (s : State) (op a c : Byte) (p : List Byte) (hs : s.ready = true)
    (hk : isKnown s.variant op = true) (hc : isCommand op = true) (hr : op ≠ opRaw) (ha : a = s.ownByte)
    (hl : p.length = (payloadLen op).toNat) (h0 : s.acc = 0)
    (hsum : sumBytes (sync :: sync :: op :: a :: (p ++ [c])) = 0)
    (hi : s.variant = .runtime → op = opSetid → ∀ v, p = [v] → v.toNat < 128) :
    s.receive (sync :: sync :: op :: a :: (p ++ [c])) =
      { s with
        wdt := 0
        rxPop := true
        txWrite := false
        calls := []
        acc := 0
        opcode := op
        addr := a
        count := if p = [] then s.count else BitVec.ofNat 9 p.length
        expected := if p = [] then s.expected else BitVec.ofNat 9 p.length
        rxbuf := s.rxFilled p
        phase := .pending } := by
  obtain ⟨hh, -, -⟩ := State.ready_running hs
  rw [State.receive, State.feed_own_fixed s.clearStrobes op a p [c] (by exact hs) (by exact hk) hc hr (by exact ha) hl]
  have hsum' := sumBytes_frame (op :: a :: p) c
  rw [List.cons_append, List.cons_append, hsum] at hsum'
  rw [State.feed_checksum_good _ c (by exact hh) (by rfl) ?_ ?_]
  · rfl
  · refine Eq.trans ?_ hsum'.symm
    show s.acc + _ + _ + _ + _ + _ + _ = _
    rw [h0]
    simp only [sumBytes]
    abel
  · intro hv ho
    have ho' : op = opSetid := ho
    subst ho'
    obtain ⟨v, rfl⟩ : ∃ v, p = [v] := List.length_eq_one_iff.mp hl
    rw [State.rxByte_of_filled s [v] (i := 0) (by simp) _ rfl]
    exact hi hv rfl v rfl

/-- Receiving a valid own-addressed self-describing frame that fits the receive buffer leaves it in `Pending` (R187). -/
theorem State.receive_own_self (s : State) (a cmd c : Byte) (p : List Byte) (hs : s.ready = true) (ha : a = s.ownByte)
    (hl : p.length ≤ 255) (hfit : p.length + 2 ≤ s.par.rxBufCap) (h0 : s.acc = 0)
    (hsum : sumBytes (encodeSelf a cmd p c) = 0) :
    s.receive (encodeSelf a cmd p c) =
      { s with
        wdt := 0
        rxPop := true
        txWrite := false
        calls := []
        acc := 0
        opcode := opRaw
        addr := a
        count := BitVec.ofNat 9 (p.length + 2)
        expected := BitVec.ofNat 9 (p.length + 2)
        rxbuf := s.rxFilled (BitVec.ofNat 8 p.length :: cmd :: p)
        phase := .pending } := by
  obtain ⟨hh, -, -⟩ := State.ready_running hs
  have hsum' := sumBytes_frame (opRaw :: a :: BitVec.ofNat 8 p.length :: cmd :: p) c
  have he : encodeSelf a cmd p c = sync :: sync :: opRaw :: a :: BitVec.ofNat 8 p.length :: cmd :: (p ++ [c]) := rfl
  simp only [List.cons_append] at hsum'
  rw [he] at hsum
  rw [hsum] at hsum'
  rw [State.receive, he,
    State.feed_own_self s.clearStrobes a cmd p [c] (by exact hs) (by exact ha) hl (by exact hfit)]
  rw [State.feed_checksum_good _ c (by exact hh) (by rfl) ?_ (fun _ h => absurd h (by simp))]
  · rfl
  · refine Eq.trans ?_ hsum'.symm
    show s.acc + _ + _ + _ + _ + _ + _ = _
    rw [h0]
    simp only [sumBytes]
    abel

/-- A frame that is received into `Pending` is dispatched with its own effect. -/
theorem runFrame_pending (frame : List Byte) (body : State → State) (s r : State) (hs : s.ready = true)
    (hr : s.receive frame = r) (hh : r.receiverHalted = false) (hp : r.phase = .pending) :
    runFrame frame body s = .next (body r.clearStrobes).endDispatch := by
  simp only [runFrame, hs, if_true, hr, State.commit_pending r body hh hp]

/-- A frame that is received into `Error` is counted. -/
theorem runFrame_error (frame : List Byte) (body : State → State) (s r : State) (hs : s.ready = true)
    (hr : s.receive frame = r) (hh : r.receiverHalted = false) (hp : r.phase = .error) :
    runFrame frame body s = .next r.clearStrobes.errorPhase := by
  simp only [runFrame, hs, if_true, hr, State.commit_error r body hh hp]

/-- A frame that is eaten or dropped has no further effect. -/
theorem runFrame_finished (frame : List Byte) (body : State → State) (s r : State) (hs : s.ready = true)
    (hr : s.receive frame = r) (hp : r.phase = .finished) : runFrame frame body s = .next r := by
  simp only [runFrame, hs, if_true, hr]
  rw [State.commit_other r body (.inr (by simp [hp]))]

/-- The same for a boot request, whose dispatch is given. -/
theorem runBootFrame_pending (frame : List Byte) (dispatch : State → Result) (s r : State) (hs : s.ready = true)
    (hr : s.receive frame = r) (hh : r.receiverHalted = false) (hp : r.phase = .pending) :
    runBootFrame frame dispatch s = dispatch r.clearStrobes := by
  simp [runBootFrame, hs, hr, hh, hp]

theorem runBootFrame_error (frame : List Byte) (dispatch : State → Result) (s r : State) (hs : s.ready = true)
    (hr : s.receive frame = r) (hh : r.receiverHalted = false) (hp : r.phase = .error) :
    runBootFrame frame dispatch s = .next r.clearStrobes.errorPhase := by
  simp [runBootFrame, hs, hr, hp, State.commit_error r _ hh hp]

theorem runBootFrame_finished (frame : List Byte) (dispatch : State → Result) (s r : State) (hs : s.ready = true)
    (hr : s.receive frame = r) (hp : r.phase = .finished) : runBootFrame frame dispatch s = .next r := by
  simp [runBootFrame, hs, hr, hp, State.commit_other r _ (.inr (by simp [hp]))]

end Sys2Proof.Machine
end

