-- ==== Sys2Proof/Laws/Exec.lean ====
section
/-! SUPPORT. How an instruction ends, said once: it waits, its frame is received and not committed, it is counted as an
error, or the dispatch of its variant happens. -/

namespace Sys2Proof.Machine

/-- The ends of a frame: waiting (R56), eaten, dropped or halted (R174, R165, R190), counted (R177), or dispatched by
the arbiter of the variant (R181). -/
def FrameEnds (s : State) (frame : List Byte) (o : Result) : Prop :=
  (s.ready = false ∧ o = .next (s.unread frame)) ∨
  (s.ready = true ∧ o = .next (s.receive frame)) ∨
  (s.ready = true ∧ (s.receive frame).receiverHalted = false ∧ (s.receive frame).phase = .error ∧
    o = .next (s.receive frame).clearStrobes.errorPhase) ∨
  (s.ready = true ∧ (s.receive frame).receiverHalted = false ∧ (s.receive frame).phase = .pending ∧
    ((s.variant = .runtime ∧
        ∃ op, isCommand op = true ∧ o = .next ((s.receive frame).clearStrobes.dispatchRuntime op).endDispatch) ∨
      (s.variant = .boot ∧ ∃ c, o = (s.receive frame).clearStrobes.dispatchBoot c)))

/-- A command's frame in the runtime variant. -/
theorem FrameEnds.command {s : State} {frame : List Byte} {body : State → State} {o : Result} (hv : s.variant = .runtime)
    (op : Byte) (hc : isCommand op = true) (hb : ∀ r : State, r.dispatchRuntime op = body r)
    (h : runFrame frame body s = o) : FrameEnds s frame o := by
  subst h
  rcases runFrame_cases (frame := frame) (body := body) (s := s) rfl with
    ⟨h1, h2⟩ | ⟨h1, h2⟩ | ⟨h1, h2, h3, h4⟩ | ⟨h1, h2, h3, h4⟩
  · exact .inl ⟨h1, congrArg _ h2⟩
  · exact .inr (.inl ⟨h1, congrArg _ h2⟩)
  · exact .inr (.inr (.inl ⟨h1, h2, h3, congrArg _ h4⟩))
  · exact .inr (.inr (.inr ⟨h1, h2, h3, .inl ⟨hv, op, hc, by rw [hb]; exact congrArg _ h4⟩⟩))

/-- A boot request's frame in the boot variant. -/
theorem FrameEnds.request {s : State} {frame : List Byte} {body : State → State} {o : Result} (hv : s.variant = .boot)
    (c : Byte) (hb : ∀ r : State, r.dispatchBoot c = .next (body r).endDispatch) (h : runFrame frame body s = o) :
    FrameEnds s frame o := by
  subst h
  rcases runFrame_cases (frame := frame) (body := body) (s := s) rfl with
    ⟨h1, h2⟩ | ⟨h1, h2⟩ | ⟨h1, h2, h3, h4⟩ | ⟨h1, h2, h3, h4⟩
  · exact .inl ⟨h1, congrArg _ h2⟩
  · exact .inr (.inl ⟨h1, congrArg _ h2⟩)
  · exact .inr (.inr (.inl ⟨h1, h2, h3, congrArg _ h4⟩))
  · exact .inr (.inr (.inr ⟨h1, h2, h3, .inr ⟨hv, c, by rw [hb]; exact congrArg _ h4⟩⟩))

/-- The same where the dispatch may have no successor. -/
theorem FrameEnds.dispatch {s : State} {frame : List Byte} {dispatch : State → Result} {o : Result}
    (hv : s.variant = .boot) (hd : ∀ r : State, ∃ c, dispatch r = r.dispatchBoot c)
    (h : runBootFrame frame dispatch s = o) : FrameEnds s frame o := by
  rcases runBootFrame_cases h with ⟨h1, h2⟩ | ⟨h1, h2⟩ | ⟨h1, h2, h3, h4⟩ | ⟨h1, h2, h3, h4⟩
  · exact .inl ⟨h1, h2⟩
  · exact .inr (.inl ⟨h1, h2⟩)
  · exact .inr (.inr (.inl ⟨h1, h2, h3, h4⟩))
  · obtain ⟨c, hc⟩ := hd (s.receive frame).clearStrobes
    exact .inr (.inr (.inr ⟨h1, h2, h3, .inr ⟨hv, c, h4.trans hc⟩⟩))

/-- A frame that is never dispatched. -/
theorem FrameEnds.discarded {s : State} {frame : List Byte} {body : State → State} {o : Result}
    (hd : s.ready = true → (s.receive frame).phase ≠ .pending) (h : runFrame frame body s = o) :
    FrameEnds s frame o := by
  subst h
  rcases runFrame_cases (frame := frame) (body := body) (s := s) rfl with
    ⟨h1, h2⟩ | ⟨h1, h2⟩ | ⟨h1, h2, h3, h4⟩ | ⟨h1, -, h3, -⟩
  · exact .inl ⟨h1, congrArg _ h2⟩
  · exact .inr (.inl ⟨h1, congrArg _ h2⟩)
  · exact .inr (.inr (.inl ⟨h1, h2, h3, congrArg _ h4⟩))
  · exact absurd h3 (hd h1)

/-- A frame whose opcode the variant does not know is dropped at its opcode byte (R165). -/
theorem State.receive_unknown (s : State) (op : Byte) (rest : List Byte) (hs : s.ready = true)
    (hk : isKnown s.variant op = false) :
    s.receive (sync :: sync :: op :: rest) =
      { s with
        opcode := op
        acc := s.acc + 0xFF + 0xFF
        wdt := 0
        rxPop := true
        txWrite := false
        calls := []
        phase := .finished
        rxq := rest ++ s.rxq } :=
  State.receive_of_feed (State.feed_unknown s.clearStrobes op rest hs hk)

/-- A runtime command of fixed length, in either variant: in the boot variant its opcode is unknown (R341). -/
theorem FrameEnds.fixed {s : State} {rest : List Byte} {body : State → State} {o : Result} (op : Byte)
    (hc : isCommand op = true) (hr : op ≠ opRaw) (hb : ∀ r : State, r.dispatchRuntime op = body r)
    (h : runFrame (sync :: sync :: op :: rest) body s = o) : FrameEnds s (sync :: sync :: op :: rest) o := by
  cases hv : s.variant with
  | runtime => exact FrameEnds.command hv op hc hb h
  | boot =>
    refine FrameEnds.discarded (fun hs => ?_) h
    rw [State.receive_unknown s op rest hs (by
      rw [hv, isKnown, isResponse_of_isCommand hc, Bool.or_false]
      exact beq_eq_false_iff_ne.mpr hr)]
    simp

/-- A response frame or a boot answer (R166, R165). -/
theorem FrameEnds.response {s : State} {rest : List Byte} {body : State → State} {o : Result} (op : Byte)
    (hc : isCommand op = false) (h : runFrame (sync :: sync :: op :: rest) body s = o) :
    FrameEnds s (sync :: sync :: op :: rest) o :=
  FrameEnds.discarded (fun hs => (State.receive_discarded s op rest hs hc).1) h

/-- Every instruction ends in one of these ways. -/
theorem exec_ends {s : State} {i : Instr} {o : Result} (h : exec i s = o) : FrameEnds s (encode i) o := by
  have hraw : ∀ r : State, r.dispatchRuntime opRaw = r.rawBody := fun r => r.dispatchRuntime_eq.2.2.2.2.2.2.2.2
  cases i with
  | reqdata a c => exact FrameEnds.fixed opReqdata rfl (by decide) (fun r => r.dispatchRuntime_eq.1) h
  | setv0 a p c => exact FrameEnds.fixed opSetv0 rfl (by decide) (fun r => r.dispatchRuntime_eq.2.1) h
  | setv1 a p c => exact FrameEnds.fixed opSetv1 rfl (by decide) (fun r => r.dispatchRuntime_eq.2.2.1) h
  | ping a c => exact FrameEnds.fixed opPing rfl (by decide) (fun r => r.dispatchRuntime_eq.2.2.2.1) h
  | setlimit a v c => exact FrameEnds.fixed opSetlimit rfl (by decide) (fun r => r.dispatchRuntime_eq.2.2.2.2.1) h
  | setid a v c => exact FrameEnds.fixed opSetid rfl (by decide) (fun r => r.dispatchRuntime_eq.2.2.2.2.2.1) h
  | config a f c => exact FrameEnds.fixed opConfig rfl (by decide) (fun r => r.dispatchRuntime_eq.2.2.2.2.2.2.1) h
  | sensor a v c => exact FrameEnds.fixed opSensor rfl (by decide) (fun r => r.dispatchRuntime_eq.2.2.2.2.2.2.2.1) h
  | raw a cmd p c =>
    simp only [exec, execRaw] at h
    split at h
    · next hv => exact FrameEnds.command hv opRaw rfl hraw h
    · next hv => exact FrameEnds.dispatch hv (fun r => ⟨_, rfl⟩) h
  | pingR a c => exact FrameEnds.response opPingR rfl h
  | setidR a c => exact FrameEnds.response opSetidR rfl h
  | dataR a w0 w1 w2 w3 w4 c => exact FrameEnds.response opDataR rfl h
  | sensorR a x y z c => exact FrameEnds.response opSensorR rfl h
  | rawR a c => exact FrameEnds.response opRawR rfl h
  | bS a p c =>
    simp only [exec, execBS] at h
    split at h
    · next hv => exact FrameEnds.command hv opRaw rfl hraw h
    · next hv => exact FrameEnds.request hv cmdS (fun r => r.dispatchBoot_eq.1) h
  | bI a p c =>
    simp only [exec, execBI] at h
    split at h
    · next hv => exact FrameEnds.command hv opRaw rfl hraw h
    · next hv => exact FrameEnds.request hv cmdI (fun r => r.dispatchBoot_eq.2.1) h
  | bW a p c =>
    simp only [exec, execBW] at h
    split at h
    · next hv => exact FrameEnds.command hv opRaw rfl hraw h
    · next hv => exact FrameEnds.dispatch hv (fun r => ⟨cmdW, r.dispatchBoot_eq.2.2.1.symm⟩) h
  | bR a p c =>
    simp only [exec, execBR] at h
    split at h
    · next hv => exact FrameEnds.command hv opRaw rfl hraw h
    · next hv => exact FrameEnds.request hv cmdR (fun r => r.dispatchBoot_eq.2.2.2) h
  | bY c => exact FrameEnds.response statusY rfl h
  | bN c => exact FrameEnds.response statusN rfl h

/-- How a boot dispatch ends: an answer, the deferred reset, a programmed page, or no successor (R345 to R356). -/
theorem State.dispatchBoot_ends (s : State) (c : Byte) :
    (∃ ok, s.dispatchBoot c = .next (s.answer ok).endDispatch) ∨
    s.dispatchBoot c = .next s.bootRBody.endDispatch ∨
    (s.pageAccepted = true ∧ s.cursor < s.par.appLimit ∧ s.cursor + s.par.pageSize ≤ 2 ^ s.par.flashAddrW ∧
      s.dispatchBoot c = .next s.programPage.endDispatch) ∨
    (s.par.appLimit ≤ s.cursor ∧ s.dispatchBoot c = .fault .pageBeyondLimit) ∨
    (s.cursor < s.par.appLimit ∧ 2 ^ s.par.flashAddrW < s.cursor + s.par.pageSize ∧
      s.dispatchBoot c = .fault .flashRange) := by
  unfold State.dispatchBoot
  split
  · exact .inl ⟨_, rfl⟩
  split
  · exact .inl ⟨_, rfl⟩
  split
  · unfold State.bootWBody
    split
    · exact .inl ⟨_, rfl⟩
    · next ha =>
      split
      · next hl => exact .inr (.inr (.inr (.inl ⟨hl, rfl⟩)))
      · next hl =>
        split
        · next hf => exact .inr (.inr (.inr (.inr ⟨Nat.not_le.mp hl, hf, rfl⟩)))
        · next hf => exact .inr (.inr (.inl ⟨by simpa using ha, Nat.not_le.mp hl, Nat.not_lt.mp hf, rfl⟩))
  split
  · exact .inr (.inl rfl)
  · exact .inl ⟨_, rfl⟩

end Sys2Proof.Machine
end

