-- ==== Sys2Proof/Laws/PerInstr.lean ====
section
/-! SUPPORT. Statements for every instruction, made per constructor. -/

namespace Sys2Proof.Laws

/-- A well-formed instruction's frame opens with the sync pair, has at least four bytes and at most the longest frame's
(R120, R139). -/
def FrameShape.Statement (i : Instr) : Prop :=
  i.wellFormed = true → (encode i).take 2 = [sync, sync] ∧ 4 ≤ (encode i).length ∧ (encode i).length ≤ longestFrame

/-- The frame of an instruction of fixed length (R121, R122, R124). -/
theorem shortFrame_shape {frame : List Byte} (hs : frame.take 2 = [sync, sync]) (h4 : Nat.ble 4 frame.length = true)
    (hl : Nat.ble frame.length longestFrame = true) :
    frame.take 2 = [sync, sync] ∧ 4 ≤ frame.length ∧ frame.length ≤ longestFrame :=
  ⟨hs, Nat.le_of_ble_eq_true h4, Nat.le_of_ble_eq_true hl⟩

/-- The frame of a self-describing instruction (R123). -/
theorem encodeSelf_shape (a c chk : Byte) (payload : List Byte) (h : payload.length ≤ 255) :
    (encodeSelf a c payload chk).take 2 = [sync, sync] ∧ 4 ≤ (encodeSelf a c payload chk).length ∧
    (encodeSelf a c payload chk).length ≤ longestFrame := by
  refine ⟨rfl, ?_, ?_⟩ <;> simp [encodeSelf, longestFrame]
  omega

theorem FrameShape.reqdata (a c : Byte) : FrameShape.Statement (.reqdata a c) := fun _ => shortFrame_shape rfl rfl rfl
theorem FrameShape.setv0 (a p c : Byte) : FrameShape.Statement (.setv0 a p c) := fun _ => shortFrame_shape rfl rfl rfl
theorem FrameShape.setv1 (a p c : Byte) : FrameShape.Statement (.setv1 a p c) := fun _ => shortFrame_shape rfl rfl rfl
theorem FrameShape.ping (a c : Byte) : FrameShape.Statement (.ping a c) := fun _ => shortFrame_shape rfl rfl rfl
theorem FrameShape.setlimit (a v c : Byte) : FrameShape.Statement (.setlimit a v c) :=
  fun _ => shortFrame_shape rfl rfl rfl
theorem FrameShape.setid (a v c : Byte) : FrameShape.Statement (.setid a v c) := fun _ => shortFrame_shape rfl rfl rfl
theorem FrameShape.config (a f c : Byte) : FrameShape.Statement (.config a f c) := fun _ => shortFrame_shape rfl rfl rfl
theorem FrameShape.sensor (a v c : Byte) : FrameShape.Statement (.sensor a v c) := fun _ => shortFrame_shape rfl rfl rfl
theorem FrameShape.raw (a cmd : Byte) (payload : List Byte) (c : Byte) :
    FrameShape.Statement (.raw a cmd payload c) := fun h => encodeSelf_shape a cmd c payload (of_decide_eq_true h)
theorem FrameShape.pingR (a c : Byte) : FrameShape.Statement (.pingR a c) := fun _ => shortFrame_shape rfl rfl rfl
theorem FrameShape.setidR (a c : Byte) : FrameShape.Statement (.setidR a c) := fun _ => shortFrame_shape rfl rfl rfl
theorem FrameShape.dataR (a : Byte) (w0 w1 w2 w3 w4 : Word) (c : Byte) :
    FrameShape.Statement (.dataR a w0 w1 w2 w3 w4 c) := fun _ => shortFrame_shape rfl rfl rfl
theorem FrameShape.sensorR (a : Byte) (x y z : Word) (c : Byte) : FrameShape.Statement (.sensorR a x y z c) :=
  fun _ => shortFrame_shape rfl rfl rfl
theorem FrameShape.rawR (a c : Byte) : FrameShape.Statement (.rawR a c) := fun _ => shortFrame_shape rfl rfl rfl
theorem FrameShape.bS (a : Byte) (payload : List Byte) (c : Byte) : FrameShape.Statement (.bS a payload c) :=
  fun h => encodeSelf_shape a cmdS c payload (of_decide_eq_true h)
theorem FrameShape.bI (a : Byte) (payload : List Byte) (c : Byte) : FrameShape.Statement (.bI a payload c) :=
  fun h => encodeSelf_shape a cmdI c payload (of_decide_eq_true h)
theorem FrameShape.bW (a : Byte) (payload : List Byte) (c : Byte) : FrameShape.Statement (.bW a payload c) :=
  fun h => encodeSelf_shape a cmdW c payload (of_decide_eq_true h)
theorem FrameShape.bR (a : Byte) (payload : List Byte) (c : Byte) : FrameShape.Statement (.bR a payload c) :=
  fun h => encodeSelf_shape a cmdR c payload (of_decide_eq_true h)
theorem FrameShape.bY (c : Byte) : FrameShape.Statement (.bY c) := fun _ => shortFrame_shape rfl rfl rfl
theorem FrameShape.bN (c : Byte) : FrameShape.Statement (.bN c) := fun _ => shortFrame_shape rfl rfl rfl

end Sys2Proof.Laws
end

