-- ==== Sys2Proof/Laws/Service.lean ====
section
/-! SUPPORT. Feeding a frame's bytes to the receiver is a run of service steps, one byte a step. -/

namespace Sys2Proof.Machine

/-- The state with the receive interface's contents given. -/
def State.receiving (s : State) (q : List Byte) : State := { s with rxq := q }

/-- A payload being read is not complete and fits `RXBUF` (R83, R173). -/
def State.readingFits (s : State) : Prop :=
  s.phase = .reading → s.count.toNat < s.expected.toNat ∧ s.expected.toNat ≤ s.par.rxBufCap

theorem payloadLen_le (op : Byte) : (payloadLen op).toNat ≤ 1 := by
  unfold payloadLen
  split <;> decide

/-- A byte rule keeps the payload within the buffer. -/
theorem State.readingFits_byteRule (s : State) (b : Byte) (hcap : 2 ≤ s.par.rxBufCap) (h : s.readingFits) :
    (s.byteRule b).readingFits := by
  unfold State.byteRule
  split
  · unfold State.rxSyncing
    repeat' split
    all_goals intro hp; simp at hp
    all_goals exact h hp
  · unfold State.rxAwaiting
    split <;> (intro hp; simp at hp)
  · next hg =>
    unfold State.rxGetAddress
    repeat' split
    all_goals intro hp
    all_goals try (simp [State.raiseFraming] at hp; done)
    · exact absurd (hg.symm.trans hp) (by simp)
    · next hz =>
      have hne : (payloadLen s.opcode).toNat ≠ 0 := fun e => hz (BitVec.eq_of_toNat_eq (by simpa using e))
      have := payloadLen_le s.opcode
      refine ⟨?_, ?_⟩
      · show (0 : BitVec 9).toNat < (payloadLen s.opcode).toNat
        simp; omega
      · show (payloadLen s.opcode).toNat ≤ s.par.rxBufCap
        omega
  · next hr =>
    obtain ⟨hlt, hle⟩ := h hr
    have hexp := s.expected.isLt
    have h1 : (s.count + 1).toNat = s.count.toNat + 1 := by rw [BitVec.toNat_add]; simp; omega
    unfold State.rxReading
    simp only
    split
    · next hc =>
      split
      · intro hp; simp [State.raiseFraming] at hp
      · next hfit =>
        have hb := b.isLt
        unfold State.rxPayloadEnd
        split
        · intro hp; simp at hp
        · intro _
          have hc1 : s.count + 1 = 1 := hc.2
          have hfit' : ¬ (s.par.rxBufCap < 1 + lenExtra + b.toNat) := hfit
          refine ⟨?_, ?_⟩
          · show (s.count + 1).toNat < (BitVec.ofNat 9 (1 + lenExtra + b.toNat)).toNat
            rw [hc1]
            simp [lenExtra]
            omega
          · show (BitVec.ofNat 9 (1 + lenExtra + b.toNat)).toNat ≤ s.par.rxBufCap
            simp only [lenExtra] at hfit' ⊢
            simp
            omega
    · unfold State.rxPayloadEnd
      split
      · intro hp; simp at hp
      · next hne =>
        intro _
        have hne' : ¬ (s.count + 1 = s.expected) := hne
        refine ⟨?_, hle⟩
        show (s.count + 1).toNat < s.expected.toNat
        have : (s.count + 1).toNat ≠ s.expected.toNat := fun e => hne' (BitVec.eq_of_toNat_eq e)
        omega
  · unfold State.rxEating
    repeat' split
    all_goals intro hp; simp at hp
    all_goals exact h hp
  · unfold State.rxVerifying
    simp only
    repeat' split
    all_goals intro hp; simp [State.raiseFraming] at hp
  all_goals exact h

theorem State.readingFits_consume (s : State) (b : Byte) (hcap : 2 ≤ s.par.rxBufCap) (h : s.readingFits) :
    (s.consume b).readingFits :=
  State.readingFits_byteRule { s with wdt := 0, rxPop := true } b hcap h

/-- A byte rule changes neither the parameters nor the strobes and what stands at the receive interface, and does not
depend on the latter. -/
theorem State.byteRule_par (s : State) (b : Byte) : (s.byteRule b).par = s.par := by
  obtain ⟨_, _, _, _, _, _, _, _, _, _, _, _, _, _, _, _, he, -⟩ := s.byteRule_frame b
  rw [he]

theorem State.byteRule_strobes (s : State) (b : Byte) :
    (s.byteRule b).txWrite = s.txWrite ∧ (s.byteRule b).calls = s.calls := by
  obtain ⟨_, _, _, _, _, _, _, _, _, _, _, _, _, _, _, _, he, -⟩ := s.byteRule_frame b
  rw [he]
  exact ⟨rfl, rfl⟩

theorem State.byteRule_receiving (s : State) (b : Byte) (q : List Byte) :
    (s.receiving q).byteRule b = (s.byteRule b).receiving q := by
  unfold State.byteRule
  rw [show (s.receiving q).phase = s.phase from rfl]
  split
  · simp only [State.rxSyncing, apply_ite (fun t : State => t.receiving q)]; rfl
  · simp only [State.rxAwaiting, apply_ite (fun t : State => t.receiving q)]; rfl
  · simp only [State.rxGetAddress, apply_ite (fun t : State => t.receiving q)]; rfl
  · simp only [State.rxReading, State.rxPayloadEnd, apply_ite (fun t : State => t.receiving q)]; rfl
  · simp only [State.rxEating, apply_ite (fun t : State => t.receiving q)]; rfl
  · simp only [State.rxVerifying, apply_ite (fun t : State => t.receiving q)]; rfl
  all_goals rfl

theorem State.consume_par (s : State) (b : Byte) : (s.consume b).par = s.par :=
  State.byteRule_par { s with wdt := 0, rxPop := true } b

theorem State.consume_strobes (s : State) (b : Byte) :
    (s.consume b).txWrite = s.txWrite ∧ (s.consume b).calls = s.calls :=
  State.byteRule_strobes { s with wdt := 0, rxPop := true } b

theorem State.consume_receiving (s : State) (b : Byte) (q : List Byte) :
    (s.receiving q).consume b = (s.consume b).receiving q :=
  State.byteRule_receiving { s with wdt := 0, rxPop := true } b q

/-- A service step that finds a byte consumes it (R160). -/
theorem State.serviceStep_byte (s : State) (b : Byte) (rest : List Byte) (hh : s.receiverHalted = false)
    (hc : s.phase.consumes = true) (hq : s.rxq = b :: rest)
    (hr : s.phase = .reading → s.count.toNat < s.par.rxBufCap) :
    s.serviceStep = .next ((s.receiving rest).consume b) := by
  have hb : s.bytePhase = .next ((s.receiving rest).consume b) := by
    unfold State.bytePhase
    rw [hq]
    simp only
    rw [if_neg (by rintro ⟨hp, hge⟩; have := hr hp; omega)]
    rfl
  unfold State.serviceStep
  rw [if_neg (by simp [hh])]
  split
  iterate 6 exact hb
  all_goals next hp => rw [hp] at hc; simp [Phase.consumes] at hc

/-- What the receiver makes of bytes at the head of the receive interface, one service step a byte (R160, R189). -/
theorem State.serviceRun_feed (frame q : List Byte) (s : State) (hcap : 2 ≤ s.par.rxBufCap) (hf : s.readingFits)
    (hw : s.txWrite = false) (hc : s.calls = []) :
    ∃ k, k + (s.feed frame).2.length = frame.length ∧ ∀ m,
      (s.receiving (frame ++ q)).serviceRun (k + m) =
        ((s.feed frame).1.receiving ((s.feed frame).2 ++ q)).serviceRun m := by
  induction frame generalizing s with
  | nil => exact ⟨0, rfl, fun m => by simp [State.feed]⟩
  | cons b bs ih =>
    by_cases ht : s.takesByte = true
    · have hpar : (s.consume b).par = s.par := State.consume_par s b
      obtain ⟨hw', hc'⟩ := State.consume_strobes s b
      obtain ⟨k, hk, hrun⟩ := ih (s.consume b) (by rw [hpar]; exact hcap) (State.readingFits_consume s b hcap hf)
        (hw'.trans hw) (hc'.trans hc)
      rw [State.feed_takes s b bs ht]
      refine ⟨k + 1, by simp only [List.length_cons]; omega, fun m => ?_⟩
      rw [show k + 1 + m = (k + m) + 1 by omega, State.serviceRun]
      have hstep : (s.receiving (b :: bs ++ q)).clearStrobes.serviceStep = .next ((s.consume b).receiving (bs ++ q)) := by
        simp only [State.takesByte, Bool.and_eq_true, Bool.not_eq_true'] at ht
        rw [State.serviceStep_byte (s.receiving (b :: bs ++ q)).clearStrobes b (bs ++ q) ht.1 ht.2 rfl ?_]
        · rw [← State.consume_receiving]
          simp [State.clearStrobes, State.consume, State.receiving, hw, hc]
        · intro hp
          have := hf hp
          show s.count.toNat < s.par.rxBufCap
          omega
      rw [hstep]
      exact hrun m
    · rw [State.feed_stops s _ (by simpa using ht)]
      exact ⟨0, by simp, fun m => by simp⟩

end Sys2Proof.Machine
end

