-- ==== Sys2Proof/Tests/Slice0.lean ====
section
/-! SUPPORT. Tests: what WellFormed refuses, what the decoder reads from words written out from 30_encoding.md, one step
of each instruction on the vectors of 95_test_vectors.md, and one state for each statement that has hypotheses. Expected
bytes and values are the vectors' (Vn names the vector) or worked out from the rule that is named. -/

namespace Sys2Proof.Tests

open Sys2Proof.Machine

/-! ## The common start state and environment of 95_test_vectors.md section 0 -/

def pins (v : Variant) : Ports where
  pos := 0x0102
  cur := 0x0304
  vel := 0x0506
  vsup := 0x0708
  temp := 0x090A
  sensorX := 0x0010
  sensorY := 0xFFF0
  sensorZ := 0x1234
  sigIn := ⟨0x1E, 0x93, 0x0B⟩
  nvmFault := none
  txReady := true
  txComplete := true
  strap := v
  rxAfterReset := []

/-- The device of identity 23 after reset. -/
def dev (v : Variant) : State := State.powerUp Params.example (pins v)

/-- The device with a frame on the line and the burst that runs it next. -/
def heard (v : Variant) (bytes : List Byte) : State :=
  { dev v with rxq := bytes, inputs := [⟨pins v, .burst⟩] }

/-- What a step's next state shows. -/
def after {α : Type} (r : Result) (f : State → α) : Option α :=
  match r with
  | .next t => some (f t)
  | .fault _ => none
  | .refused _ => none

/-- The frame a state has queued, with its checksum; nothing when the response buffer is empty (R183, R304). -/
def reply (t : State) : List Byte := if t.txLen = 2 then [] else t.txQueued ++ [checksumOf t.txQueued]

/-! ## WellFormed: a payload of 256 bytes does not fit the length byte (R123) -/

theorem test_wf_raw : (Instr.raw 0 0 (List.replicate 256 0) 0).wellFormed = false := by
  rw [Instr.wellFormed, List.length_replicate]
  rfl
theorem test_wf_bS : (Instr.bS 0 (List.replicate 256 0) 0).wellFormed = false := by
  rw [Instr.wellFormed, List.length_replicate]
  rfl
theorem test_wf_bI : (Instr.bI 0 (List.replicate 256 0) 0).wellFormed = false := by
  rw [Instr.wellFormed, List.length_replicate]
  rfl
theorem test_wf_bW : (Instr.bW 0 (List.replicate 256 0) 0).wellFormed = false := by
  rw [Instr.wellFormed, List.length_replicate]
  rfl
theorem test_wf_bR : (Instr.bR 0 (List.replicate 256 0) 0).wellFormed = false := by
  rw [Instr.wellFormed, List.length_replicate]
  rfl
theorem test_wf_longest : (Instr.raw 0 0 (List.replicate 255 0) 0).wellFormed = true := by
  rw [Instr.wellFormed, List.length_replicate]
  rfl

/-! ## Decoding frames written out from 30_encoding.md R121 to R124 and R131 -/

theorem test_decode_reqdata : decode .runtime [0xFF, 0xFF, 0xC0, 0x17, 0x2B] = .ok (.reqdata 0x17 0x2B, []) := rfl
theorem test_decode_setv0 :
    decode .runtime [0xFF, 0xFF, 0xB0, 0x17, 0x64, 0xD7] = .ok (.setv0 0x17 0x64 0xD7, []) := rfl
theorem test_decode_setv1 :
    decode .runtime [0xFF, 0xFF, 0xB1, 0x17, 0x64, 0xD6] = .ok (.setv1 0x17 0x64 0xD6, []) := rfl
theorem test_decode_ping : decode .runtime [0xFF, 0xFF, 0xE0, 0x17, 0x0B] = .ok (.ping 0x17 0x0B, []) := rfl
theorem test_decode_setlimit :
    decode .runtime [0xFF, 0xFF, 0xA0, 0x17, 0xC8, 0x83] = .ok (.setlimit 0x17 0xC8 0x83, []) := rfl
theorem test_decode_setid :
    decode .runtime [0xFF, 0xFF, 0x70, 0x17, 0x2A, 0x51] = .ok (.setid 0x17 0x2A 0x51, []) := rfl
theorem test_decode_config :
    decode .runtime [0xFF, 0xFF, 0x50, 0x17, 0x01, 0x9A] = .ok (.config 0x17 0x01 0x9A, []) := rfl
theorem test_decode_sensor :
    decode .runtime [0xFF, 0xFF, 0x40, 0x17, 0x00, 0xAB] = .ok (.sensor 0x17 0x00 0xAB, []) := rfl
theorem test_decode_raw :
    decode .runtime [0xFF, 0xFF, 0x55, 0x05, 0x03, 0x53, 0x01, 0x02, 0x03, 0x4C] =
      .ok (.raw 0x05 0x53 [0x01, 0x02, 0x03] 0x4C, []) := rfl
theorem test_decode_pingR : decode .runtime [0xFF, 0xFF, 0xE1, 0x17, 0x0A] = .ok (.pingR 0x17 0x0A, []) := rfl
theorem test_decode_setidR : decode .runtime [0xFF, 0xFF, 0x71, 0x2A, 0x67] = .ok (.setidR 0x2A 0x67, []) := rfl
theorem test_decode_dataR :
    decode .boot [0xFF, 0xFF, 0x80, 0x17, 1, 2, 3, 4, 5, 6, 7, 8, 9, 0x0A, 0x34, 0xFF] =
      .ok (.dataR 0x17 0x0102 0x0304 0x0506 0x0708 0x090A 0x34, [0xFF]) := rfl
theorem test_decode_sensorR :
    decode .runtime [0xFF, 0xFF, 0x41, 0x17, 0x00, 0x10, 0xFF, 0xF0, 0x12, 0x34, 0x65] =
      .ok (.sensorR 0x17 0x0010 0xFFF0 0x1234 0x65, []) := rfl
theorem test_decode_rawR : decode .runtime [0xFF, 0xFF, 0x56, 0x17, 0x95] = .ok (.rawR 0x17 0x95, []) := rfl
theorem test_decode_bS : decode .boot [0xFF, 0xFF, 0x55, 0x17, 0x00, 0x53, 0x43] = .ok (.bS 0x17 [] 0x43, []) := rfl
theorem test_decode_bI :
    decode .boot [0xFF, 0xFF, 0x55, 0x17, 0x03, 0x49, 0x1E, 0x93, 0x0B, 0x8E] =
      .ok (.bI 0x17 [0x1E, 0x93, 0x0B] 0x8E, []) := rfl
theorem test_decode_bW :
    decode .boot [0xFF, 0xFF, 0x55, 0x17, 0x06, 0x57, 0x0A, 0x00, 0x01, 0x02, 0x03, 0x04, 0x25] =
      .ok (.bW 0x17 [0x0A, 0x00, 0x01, 0x02, 0x03, 0x04] 0x25, []) := rfl
theorem test_decode_bR : decode .boot [0xFF, 0xFF, 0x55, 0x17, 0x00, 0x52, 0x44] = .ok (.bR 0x17 [] 0x44, []) := rfl
theorem test_decode_bY : decode .runtime [0xFF, 0xFF, 0x59, 0xA9] = .ok (.bY 0xA9, []) := rfl
theorem test_decode_bN : decode .boot [0xFF, 0xFF, 0x4E, 0xB4] = .ok (.bN 0xB4, []) := rfl

/-- The same bytes are `RAW` in the runtime variant and `B.S` in the boot variant (R347). -/
theorem test_decode_handshake :
    decode .runtime [0xFF, 0xFF, 0x55, 0x17, 0x00, 0x53, 0x43] = .ok (.raw 0x17 0x53 [] 0x43, []) := rfl

/-- What is no frame is refused by name: too short (R120), no sync pair (R120), an opcode of no row (R136). -/
theorem test_decode_short : decode .runtime [0xFF, 0xFF, 0xB0, 0x17, 0x64] = .error .short := rfl
theorem test_decode_noSync : decode .runtime [0xFF, 0x12, 0xE0, 0x17, 0x0B] = .error .noSync := rfl
theorem test_decode_unknown : decode .runtime [0xFF, 0xFF, 0x99, 0x17] = .error (.unknownOpcode 0x99) := rfl

/-! ## Words of spec/opcode_table.json -/

theorem test_table_reqdata : decodeTableWord 24 0xFFFFC0 = some (.reqdata 0 0) := by decide
theorem test_table_setv0 : decodeTableWord 24 0xFFFFB0 = some (.setv0 0 0 0) := by decide
theorem test_table_setv1 : decodeTableWord 24 0xFFFFB1 = some (.setv1 0 0 0) := by decide
theorem test_table_ping : decodeTableWord 24 0xFFFFE0 = some (.ping 0 0) := by decide
theorem test_table_setlimit : decodeTableWord 24 0xFFFFA0 = some (.setlimit 0 0 0) := by decide
theorem test_table_setid : decodeTableWord 24 0xFFFF70 = some (.setid 0 0 0) := by decide
theorem test_table_config : decodeTableWord 24 0xFFFF50 = some (.config 0 0 0) := by decide
theorem test_table_sensor : decodeTableWord 24 0xFFFF40 = some (.sensor 0 0 0) := by decide
theorem test_table_raw : decodeTableWord 24 0xFFFF55 = some (.raw 0 0 [] 0) := by decide
theorem test_table_pingR : decodeTableWord 24 0xFFFFE1 = some (.pingR 0 0) := by decide
theorem test_table_setidR : decodeTableWord 24 0xFFFF71 = some (.setidR 0 0) := by decide
theorem test_table_dataR : decodeTableWord 24 0xFFFF80 = some (.dataR 0 0 0 0 0 0 0) := by decide
theorem test_table_sensorR : decodeTableWord 24 0xFFFF41 = some (.sensorR 0 0 0 0 0) := by decide
theorem test_table_rawR : decodeTableWord 24 0xFFFF56 = some (.rawR 0 0) := by decide
theorem test_table_bS : decodeTableWord 48 0xFFFF55000053 = some (.bS 0 [] 0) := by decide
theorem test_table_bI : decodeTableWord 48 0xFFFF55000049 = some (.bI 0 [] 0) := by decide
theorem test_table_bW : decodeTableWord 48 0xFFFF55170257 = some (.bW 0x17 [0, 0] 0) := by decide
theorem test_table_bR : decodeTableWord 48 0xFFFF55000052 = some (.bR 0 [] 0) := by decide
theorem test_table_bY : decodeTableWord 24 0xFFFF59 = some (.bY 0) := by decide
theorem test_table_bN : decodeTableWord 24 0xFFFF4E = some (.bN 0) := by decide
theorem test_table_none : decodeTableWord 24 0xFFFF99 = none := by decide

/-- The step after reset runs the table word's instruction (log 5). -/
theorem test_step_tableWord :
    step (State.reset.withFetchWord 24 0xFFFFE0) =
      exec (.ping 0 0) { State.reset.clearStrobes with
        rxq := List.replicate 257 0
        variant := .runtime
        inputs := []
        clock := 1 } := rfl

/-! ## One step of each instruction -/

theorem test_reqdata_reply :
    after (step (heard .runtime [0xFF, 0xFF, 0xC0, 0x17, 0x2B])) (fun t => (reply t, t.calls)) =
      some ([0xFF, 0xFF, 0x80, 0x17, 1, 2, 3, 4, 5, 6, 7, 8, 9, 0x0A, 0x34], [.motorDisable, .setTargetPower 0]) := by
  decide -- V30

theorem test_reqdata_overflow :
    after (exec (.reqdata 0x17 0x2B) { dev .runtime with par := { Params.example with txBufCap := 13 } })
      (fun t => (t.fatal, t.fatalCode, t.phase, t.txQueued)) =
      some (true, .txOverflow, .pending, [0xFF, 0xFF, 0x80, 0x17, 1, 2, 3, 4, 5, 6, 7, 8, 9]) := by
  decide -- V44

theorem test_setv0_calls :
    after (step (heard .runtime [0xFF, 0xFF, 0xB0, 0x17, 0x64, 0xD7])) (fun t => (t.calls, t.txLen)) =
      some ([.setTargetDirection false, .setTargetPower 100, .motorEnable], 14) := by
  decide -- V31

theorem test_setv0_foreign :
    after (step (heard .runtime [0xFF, 0xFF, 0xB0, 0x05, 0x64, 0xE9])) (fun t => (t.phase, t.calls, t.txLen, t.rxq)) =
      some (.finished, [], 2, []) := by
  decide -- V8

theorem test_setv1_calls :
    after (step (heard .runtime [0xFF, 0xFF, 0xB1, 0x17, 0x64, 0xD6])) (fun t => (t.calls, t.txLen)) =
      some ([.setTargetDirection true, .setTargetPower 100, .motorEnable], 14) := by
  decide -- V32

theorem test_ping_reply :
    after (step (heard .runtime [0xFF, 0xFF, 0xE0, 0x17, 0x0B])) (fun t => (reply t, t.errCount, t.calls)) =
      some ([0xFF, 0xFF, 0xE1, 0x17, 0x0A], 0, []) := by
  decide -- V1

theorem test_ping_badChecksum :
    after (step { heard .runtime [0xFF, 0xFF, 0xE0, 0x17, 0x0C] with errCount := 254 })
      (fun t => (t.errCount, t.lastCause, t.acc, t.txLen)) = some (255, .badChecksum, 0x01, 2) := by
  decide -- V20, V21

theorem test_setlimit_call :
    after (step (heard .runtime [0xFF, 0xFF, 0xA0, 0x17, 0xC8, 0x83])) (fun t => (t.calls, t.txLen)) =
      some ([.setPowerLimit 200], 2) := by
  decide -- V34

theorem test_setlimit_addrRange :
    after (step (heard .runtime [0xFF, 0xFF, 0xA0, 0x80, 0x64, 0x1C]))
      (fun t => (t.errCount, t.lastCause, t.addr, t.rxq)) = some (1, .addrRange, 0x80, [0x64, 0x1C]) := by
  decide -- V19

theorem test_setid_reply :
    after (step (heard .runtime [0xFF, 0xFF, 0x70, 0x17, 0x2A, 0x51]))
      (fun t => (reply t, t.load .nvm 0, t.ownId, t.load .nvm 1)) =
      some ([0xFF, 0xFF, 0x71, 0x2A, 0x67], some 0xAA, 42, some 0x00) := by
  decide -- V35

theorem test_setid_idRange :
    after (step (heard .runtime [0xFF, 0xFF, 0x70, 0x17, 0xC8, 0xB3]))
      (fun t => (t.lastCause, t.errCount, t.load .nvm 0, t.ownId)) = some (.idRange, 1, some 0x97, 23) := by
  decide -- V38

theorem test_config_store :
    after (step (heard .runtime [0xFF, 0xFF, 0x50, 0x17, 0x01, 0x9A]))
      (fun t => (t.load .nvm 1, t.cfg, t.load .nvm 0, t.txLen)) = some (some 0x01, 0x01, some 0x97, 2) := by
  decide -- V40

theorem test_sensor_reply :
    after (step (heard .runtime [0xFF, 0xFF, 0x40, 0x17, 0x00, 0xAB])) (fun t => (reply t, t.calls)) =
      some ([0xFF, 0xFF, 0x41, 0x17, 0x00, 0x10, 0xFF, 0xF0, 0x12, 0x34, 0x65], [.sensorRestart]) := by
  decide -- V41

theorem test_raw_handshake :
    after (step (heard .runtime [0xFF, 0xFF, 0x55, 0x17, 0x00, 0x53, 0x43]))
      (fun t => (reply t, t.calls, t.handoffPending)) =
      some ([0xFF, 0xFF, 0x56, 0x17, 0x95], [.motorDisable], true) := by
  decide -- V43

theorem test_raw_lenRange :
    after (exec (.raw 0x17 0x51 (List.replicate 15 0) 0x36) (dev .runtime))
      (fun t => (t.lastCause, t.errCount, t.load .rxbuf 0, t.rxq.length)) = some (.lenRange, 1, some 0x0F, 17) := by
  decide -- V23

theorem test_pingR_eaten :
    after (step (heard .runtime [0xFF, 0xFF, 0xE1, 0x90, 0x91])) (fun t => (t.phase, t.errCount, t.rxq, t.txLen)) =
      some (.finished, 0, [], 2) := by
  decide -- V4

theorem test_setidR_eaten :
    after (step (heard .runtime [0xFF, 0xFF, 0x71, 0x2A, 0x67])) (fun t => (t.phase, t.errCount, t.rxq)) =
      some (.finished, 0, []) := by
  decide -- R262

theorem test_dataR_eaten :
    after (step (heard .boot ([0xFF, 0xFF, 0x80, 0x05] ++ List.replicate 10 0xFF ++ [0x87])))
      (fun t => (t.phase, t.opcode, t.rxq)) = some (.finished, 0x80, []) := by
  decide -- V6

theorem test_sensorR_eaten :
    after (step (heard .runtime ([0xFF, 0xFF, 0x41, 0x05] ++ List.replicate 6 0xFF ++ [0xC2])))
      (fun t => (t.phase, t.eat, t.rxq)) = some (.finished, 0, []) := by
  decide -- V7

theorem test_rawR_eaten :
    after (step (heard .runtime [0xFF, 0xFF, 0x56, 0x17, 0x95])) (fun t => (t.phase, t.handoffPending, t.rxq)) =
      some (.finished, false, []) := by
  decide -- R265

theorem test_bS_yes :
    after (step (heard .boot [0xFF, 0xFF, 0x55, 0x17, 0x00, 0x53, 0x43])) (fun t => (reply t, t.handoffPending)) =
      some ([0xFF, 0xFF, 0x59, 0xA9], false) := by
  decide -- V55

theorem test_bI_yes :
    after (step (heard .boot [0xFF, 0xFF, 0x55, 0x17, 0x03, 0x49, 0x1E, 0x93, 0x0B, 0x8E])) reply =
      some [0xFF, 0xFF, 0x59, 0xA9] := by
  decide -- V58

theorem test_bI_no :
    after (exec (.bI 0x17 [] 0x4D) { dev .boot with ports := { pins .boot with sigIn := ⟨0x1E, 0x95, 0x0F⟩ } }) reply =
      some [0xFF, 0xFF, 0x4E, 0xB4] := by
  decide -- V57

theorem test_bW_writes :
    after (step (heard .boot [0xFF, 0xFF, 0x55, 0x17, 0x06, 0x57, 0x0A, 0x00, 0x01, 0x02, 0x03, 0x04, 0x25]))
      (fun t => (reply t, t.flash, t.cursor)) =
      some ([0xFF, 0xFF, 0x59, 0xA9], [(0, 1), (1, 2), (2, 3), (3, 4)], 4) := by
  decide -- V50

theorem test_bW_badPage :
    after (step (heard .boot [0xFF, 0xFF, 0x55, 0x17, 0x06, 0x57, 0x0B, 0x00, 0x01, 0x02, 0x03, 0x04, 0x24]))
      (fun t => (reply t, t.flash, t.cursor)) = some ([0xFF, 0xFF, 0x4E, 0xB4], [], 0) := by
  decide -- V51

theorem test_bR_deferred :
    after (step (heard .boot [0xFF, 0xFF, 0x55, 0x17, 0x00, 0x52, 0x44]))
      (fun t => (reply t, t.resetPending, t.sysResetReq)) = some ([0xFF, 0xFF, 0x59, 0xA9], true, false) := by
  decide -- V60

theorem test_bY_dropped :
    after (step (heard .boot [0xFF, 0xFF, 0x59, 0xA9])) (fun t => (t.phase, t.errCount, t.rxq)) =
      some (.finished, 0, [0xA9]) := by
  decide -- R266

theorem test_bN_dropped :
    after (step (heard .runtime [0xFF, 0xFF, 0x4E, 0xB4])) (fun t => (t.phase, t.errCount, t.rxq)) =
      some (.finished, 0, [0xB4]) := by
  decide -- R266

/-- V61: the boot variant does not know the ping; `17 0B` is left for `Syncing`. -/
theorem test_boot_drops_ping :
    after (step (heard .boot [0xFF, 0xFF, 0xE0, 0x17, 0x0B])) (fun t => (t.phase, t.txLen, t.rxq)) =
      some (.finished, 2, [0x17, 0x0B]) := by
  decide

/-! ## The byte-level receiver, the turnaround and reset -/

/-- V25: the third byte-less step inside a frame is the error `INACTIVITY`. -/
theorem test_watchdog :
    after (State.serviceStep { dev .runtime with phase := .getAddress, wdt := 2 })
      (fun t => (t.phase, t.lastCause, t.wdt)) = some (.error, .inactivity, 3) := by
  decide

/-- V1: the ping's frame takes 5 + 1 + 1 receiver steps to the start of its flush (W1). -/
theorem test_bytes_one_by_one :
    after (State.serviceRun { dev .runtime with rxq := [0xFF, 0xFF, 0xE0, 0x17, 0x0B] } 7)
      (fun t => (t.phase, t.taState, t.txChk, t.acc)) = some (.finished, .mute, 0x0A, 0) := by
  decide

/-- V66: eleven ticks put `FF FF E1 17 0A` on the line and come back to receive mode. -/
theorem test_flush :
    ((State.tickRun { dev .runtime with
      taState := .mute
      txLen := 4
      txChk := 0x0A
      txbuf := [(2, 0xE1), (3, 0x17)] } 11).2, (State.tickRun { dev .runtime with
      taState := .mute
      txLen := 4
      txChk := 0x0A
      txbuf := [(2, 0xE1), (3, 0x17)] } 11).1.taState) = ([0xFF, 0xFF, 0xE1, 0x17, 0x0A], .rx) := by
  decide

/-- V69 to V72: the identity loaded at reset. -/
theorem test_identity_load :
    identityOf Params.example 0x97 = 23 ∧ identityOf Params.example 0x17 = 1 ∧ identityOf Params.example 0xFF = 127 ∧
      identityOf Params.example 0x80 = 0 := by
  decide

/-! ## A state and operands for each statement's hypotheses -/

theorem hyps_DecodeOfEncode :
    (Instr.raw 0x17 0x53 [] 0x43).wellFormed = true ∧ (Instr.raw 0x17 0x53 [] 0x43).inDialect .runtime = true ∧
    (Instr.bS 0x17 [] 0x43).wellFormed = true ∧ (Instr.bS 0x17 [] 0x43).inDialect .boot = true := by decide

theorem hyps_DecodedBytes : decode .runtime [0xFF, 0xFF, 0x59, 0xA9, 0x12] = .ok (.bY 0xA9, [0x12]) := rfl

theorem hyps_BurstRuns :
    (heard .runtime [0xFF, 0xFF, 0xE0, 0x17, 0x0B]).inputs = [⟨pins .runtime, .burst⟩] ∧
    (heard .runtime [0xFF, 0xFF, 0xE0, 0x17, 0x0B]).ready = true ∧
    decode .runtime [0xFF, 0xFF, 0xE0, 0x17, 0x0B] = .ok (.ping 0x17 0x0B, []) := ⟨rfl, rfl, rfl⟩

/-- A tick while the reset is due: before and at `T_RESET`; a bus byte with read enabled and not. -/
theorem hyps_EventsMove :
    (dev .boot).sysResetReq = false ∧ (dev .boot).re = true ∧
    (let s : State := { dev .boot with
      par := { Params.example with tReset := 2 }
      sysResetReq := true
      re := false }
    s.sysResetReq = true ∧ s.re = false ∧ s.resetTicks + 1 < s.par.tReset ∧
      ({ s with resetTicks := 1 } : State).par.tReset ≤ 1 + 1) := by decide

theorem hyps_FrameIsRun :
    (dev .boot).ready = true ∧ (Instr.bS 0x17 [] 0x43).wellFormed = true ∧ 2 ≤ (dev .boot).par.rxBufCap := by decide

theorem hyps_FrameWaits :
    ({ dev .runtime with phase := .finished } : State).ready = false ∧
    ({ dev .runtime with halfSynced := true } : State).ready = false ∧
    ({ dev .runtime with fatal := true } : State).ready = false := by decide

theorem hyps_Reqdata :
    (dev .runtime).atRest .runtime ∧ (0x17 : Byte) = (dev .runtime).ownByte ∧
    checksumValid (.reqdata 0x17 0x2B) = true := by decide

theorem hyps_SetVoltage :
    (dev .runtime).atRest .runtime ∧ (0x17 : Byte) = (dev .runtime).ownByte ∧
    checksumValid (.setv0 0x17 0x64 0xD7) = true ∧ checksumValid (.setv1 0x17 0x64 0xD6) = true := by decide

theorem hyps_Ping :
    (dev .runtime).atRest .runtime ∧ (0x17 : Byte) = (dev .runtime).ownByte ∧
    checksumValid (.ping 0x17 0x0B) = true := by decide

theorem hyps_Setlimit :
    (dev .runtime).atRest .runtime ∧ (0x17 : Byte) = (dev .runtime).ownByte ∧
    checksumValid (.setlimit 0x17 0xC8 0x83) = true := by decide

/-- V37: the greatest identity. -/
theorem hyps_Setid :
    (dev .runtime).atRest .runtime ∧ (dev .runtime).memoriesWf ∧ (0x17 : Byte) = (dev .runtime).ownByte ∧
    (0x7F : Byte).toNat < 128 ∧ checksumValid (.setid 0x17 0x7F 0xFC) = true := by decide

/-- V36: the least identity; the store works, and the step has a next state. -/
theorem hyps_SetidTakesEffect :
    (dev .runtime).atRest .runtime ∧ (dev .runtime).memoriesWf ∧ (0x17 : Byte) = (dev .runtime).ownByte ∧
    (0x00 : Byte).toNat < 128 ∧ checksumValid (.setid 0x17 0x00 0x7B) = true ∧
    (dev .runtime).ports.nvmFault = none ∧
    after (exec (.setid 0x17 0x00 0x7B) (dev .runtime)) (fun t => t.ownByte) = some 0x00 := by decide

theorem hyps_Config :
    (dev .runtime).atRest .runtime ∧ (dev .runtime).memoriesWf ∧ (0x17 : Byte) = (dev .runtime).ownByte ∧
    checksumValid (.config 0x17 0x01 0x9A) = true := by decide

theorem hyps_Sensor :
    (dev .runtime).atRest .runtime ∧ (0x17 : Byte) = (dev .runtime).ownByte ∧
    checksumValid (.sensor 0x17 0x00 0xAB) = true := by decide

/-- V43, and the longest payload that fits the buffer of 16. -/
theorem hyps_RawHandshake :
    (dev .runtime).atRest .runtime ∧ (0x17 : Byte) = (dev .runtime).ownByte ∧
    (List.replicate 14 (0 : Byte)).length + 2 ≤ (dev .runtime).par.rxBufCap ∧
    checksumValid (.raw 0x17 cmdS (List.replicate 14 0) 0x35) = true ∧
    checksumValid (.raw 0x17 cmdS [] 0x43) = true := by decide

/-- V24: `L + 2 = RX_BUF_CAP`. -/
theorem hyps_RawOther :
    (dev .runtime).atRest .runtime ∧ (0x17 : Byte) = (dev .runtime).ownByte ∧ (0x51 : Byte) ≠ cmdS ∧
    (List.replicate 14 (0 : Byte)).length + 2 ≤ (dev .runtime).par.rxBufCap ∧
    checksumValid (.raw 0x17 0x51 (List.replicate 14 0) 0x37) = true := by decide

theorem hyps_BootRequestsAreRaw : (dev .runtime).variant = .runtime := rfl

theorem hyps_ResponsesAreEaten :
    (dev .boot).ready = true ∧ (Instr.pingR 0x90 0x91).response = some (opPingR, 0x90) ∧
    (Instr.sensorR 0x05 0 0 0 0).response = some (opSensorR, 0x05) := by decide

theorem hyps_BootAnswersAreDropped :
    (dev .runtime).ready = true ∧ (dev .boot).ready = true ∧
    (let s : State := { dev .runtime with phase := .awaiting, rxq := [0x99] }
    s.receiverHalted = false ∧ s.phase = .awaiting ∧ isKnown s.variant 0x99 = false ∧ s.rxq = 0x99 :: []) := by decide

/-- The greatest address that is in range, and 0. -/
theorem hyps_ForeignCommands :
    (dev .runtime).ready = true ∧ (dev .runtime).variant = .runtime ∧
    (Instr.ping 0x7F 0).fixedCommand = some (opPing, 0x7F, [], 0) ∧ (0x7F : Byte).toNat ≤ 127 ∧
    (0x7F : Byte) ≠ (dev .runtime).ownByte ∧ (0x00 : Byte) ≠ (dev .runtime).ownByte := by decide

theorem hyps_ForeignSelf :
    (dev .boot).ready = true ∧ (Instr.bW 0x05 [0x0A, 0x00] 0).wellFormed = true ∧
    (Instr.bW 0x05 [0x0A, 0x00] 0).selfFrame = some (0x05, cmdW, [0x0A, 0x00], 0) ∧ (0x05 : Byte).toNat ≤ 127 ∧
    (0x05 : Byte) ≠ (dev .boot).ownByte := by decide

/-- The least address out of range; both forms. -/
theorem hyps_AddressOutOfRange :
    (dev .runtime).ready = true ∧ (dev .runtime).variant = .runtime ∧
    (Instr.setlimit 0x80 0x64 0x1C).fixedCommand = some (opSetlimit, 0x80, [0x64], 0x1C) ∧ 127 < (0x80 : Byte).toNat ∧
    (dev .boot).ready = true ∧ (Instr.bS 0xC8 [] 0x7A).selfFrame = some (0xC8, cmdS, [], 0x7A) ∧
    127 < (0xC8 : Byte).toNat := by decide

/-- V20; V53; V39, where the identity is out of range too. -/
theorem hyps_BadChecksum :
    (dev .runtime).ready = true ∧ (dev .runtime).variant = .runtime ∧ (dev .runtime).acc = 0 ∧
    (0x17 : Byte) = (dev .runtime).ownByte ∧
    (Instr.ping 0x17 0x0C).fixedCommand = some (opPing, 0x17, [], 0x0C) ∧ checksumValid (.ping 0x17 0x0C) = false ∧
    (Instr.setid 0x17 0xC8 0xB4).fixedCommand = some (opSetid, 0x17, [0xC8], 0xB4) ∧
    checksumValid (.setid 0x17 0xC8 0xB4) = false ∧
    (Instr.bW 0x17 [0x0A, 0, 1, 2, 3, 4] 0x26).wellFormed = true ∧
    (Instr.bW 0x17 [0x0A, 0, 1, 2, 3, 4] 0x26).selfFrame = some (0x17, cmdW, [0x0A, 0, 1, 2, 3, 4], 0x26) ∧
    [0x0A, 0, 1, 2, 3, (4 : Byte)].length + 2 ≤ (dev .boot).par.rxBufCap ∧
    checksumValid (.bW 0x17 [0x0A, 0, 1, 2, 3, 4] 0x26) = false ∧ (0x17 : Byte) = (dev .boot).ownByte := by decide

/-- The least identity out of range. -/
theorem hyps_IdentityOutOfRange :
    (dev .runtime).ready = true ∧ (dev .runtime).variant = .runtime ∧ (dev .runtime).acc = 0 ∧
    (0x17 : Byte) = (dev .runtime).ownByte ∧ 128 ≤ (0x80 : Byte).toNat ∧
    checksumValid (.setid 0x17 0x80 0xFB) = true := by decide

/-- V23: one byte more than the buffer of 16 holds. -/
theorem hyps_LengthOutOfRange :
    (dev .runtime).ready = true ∧ (Instr.raw 0x17 0x51 (List.replicate 15 0) 0).wellFormed = true ∧
    (Instr.raw 0x17 0x51 (List.replicate 15 0) 0).selfFrame = some (0x17, 0x51, List.replicate 15 0, 0) ∧
    (0x17 : Byte) = (dev .runtime).ownByte ∧
    (dev .runtime).par.rxBufCap < (List.replicate 15 (0 : Byte)).length + 2 := by decide

theorem hyps_RuntimeCommandsAreDropped :
    (dev .boot).ready = true ∧ (dev .boot).variant = .boot ∧
    (Instr.ping 0x17 0x0B).fixedCommand = some (opPing, 0x17, [], 0x0B) := by decide

theorem hyps_BootProbe :
    (dev .boot).atRest .boot ∧ (0x17 : Byte) = (dev .boot).ownByte ∧
    ([] : List Byte).length + 2 ≤ (dev .boot).par.rxBufCap ∧ checksumValid (.bS 0x17 [] 0x43) = true := by decide

theorem hyps_BootSignature :
    (dev .boot).atRest .boot ∧ (0x17 : Byte) = (dev .boot).ownByte ∧
    [0x1E, 0x93, (0x0B : Byte)].length + 2 ≤ (dev .boot).par.rxBufCap ∧
    checksumValid (.bI 0x17 [0x1E, 0x93, 0x0B] 0x8E) = true := by decide

theorem hyps_BootReset :
    (dev .boot).atRest .boot ∧ (0x17 : Byte) = (dev .boot).ownByte ∧
    ([] : List Byte).length + 2 ≤ (dev .boot).par.rxBufCap ∧ checksumValid (.bR 0x17 [] 0x44) = true := by decide

/-- V59. -/
theorem hyps_BootOther :
    (dev .boot).atRest .boot ∧ (0x17 : Byte) = (dev .boot).ownByte ∧
    ([] : List Byte).length + 2 ≤ (dev .boot).par.rxBufCap ∧ (Instr.raw 0x17 0x58 [] 0x3E).inDialect .boot = true ∧
    checksumValid (.raw 0x17 0x58 [] 0x3E) = true := by decide

/-- The device with the cursor at a page. -/
def devAt (cursor : Nat) : State := { dev .boot with cursor := cursor }

/-- V54 at the first and at the last page of the application area. -/
theorem hyps_BootWrite :
    (devAt 0).atRest .boot ∧ (devAt 60).atRest .boot ∧ (devAt 60).memoriesWf ∧ (0x17 : Byte) = (devAt 60).ownByte ∧
    (List.replicate 4 (0xFF : Byte)).length = (devAt 60).par.pageSize ∧ (devAt 60).par.pageSize ≤ 253 ∧
    (devAt 60).par.pageSize + 4 ≤ (devAt 60).par.rxBufCap ∧
    sumNat (List.replicate 4 0xFF) = (0xFC : Byte).toNat + 256 * (0x03 : Byte).toNat ∧
    (devAt 60).cursor < (devAt 60).par.appLimit ∧
    (devAt 60).cursor + (devAt 60).par.pageSize < 2 ^ (devAt 60).par.flashAddrW ∧
    checksumValid (.bW 0x17 (0xFC :: 0x03 :: List.replicate 4 0xFF) 0x3E) = true := by decide

/-- V52, a wrong length; V51, a wrong page checksum. -/
theorem hyps_BootWriteRejects :
    (devAt 0).atRest .boot ∧ (0x17 : Byte) = (devAt 0).ownByte ∧
    [0x0A, 0, 1, 2, (3 : Byte)].length + 2 ≤ (devAt 0).par.rxBufCap ∧
    checksumValid (.bW 0x17 [0x0A, 0, 1, 2, 3] 0x2A) = true ∧
    [0x0A, 0, 1, 2, (3 : Byte)].length ≠ (devAt 0).par.pageSize + 2 ∧
    [0x0B, 0, 1, 2, 3, (4 : Byte)].length + 2 ≤ (devAt 0).par.rxBufCap ∧
    checksumValid (.bW 0x17 [0x0B, 0, 1, 2, 3, 4] 0x24) = true ∧
    [1, 2, 3, (4 : Byte)].length = (devAt 0).par.pageSize ∧
    sumNat [1, 2, 3, 4] ≠ (0x0B : Byte).toNat + 256 * (0x00 : Byte).toNat := by decide

/-- The cursor just above the last page. -/
theorem hyps_BootWriteBeyondLimit :
    (devAt 64).atRest .boot ∧ (0x17 : Byte) = (devAt 64).ownByte ∧
    (List.replicate 4 (0xFF : Byte)).length = (devAt 64).par.pageSize ∧
    (devAt 64).par.pageSize + 4 ≤ (devAt 64).par.rxBufCap ∧
    sumNat (List.replicate 4 0xFF) = (0xFC : Byte).toNat + 256 * (0x03 : Byte).toNat ∧
    (devAt 64).par.appLimit ≤ (devAt 64).cursor ∧
    checksumValid (.bW 0x17 (0xFC :: 0x03 :: List.replicate 4 0xFF) 0x3E) = true := by decide

/-- An instruction with a next state; the identity byte under an instruction that is not `SETID`, the configuration byte
under one that is not `CONFIG`. -/
theorem hyps_InstructionsKeep :
    after (exec (.bW 0x17 [0x0A, 0, 1, 2, 3, 4] 0x25) (devAt 4)) (fun t => (t.load .flash 3, t.load .flash 8)) =
      some (none, none) ∧
    after (exec (.bS 0x17 [] 0x43) (devAt 4)) (fun t => t.cursor) = some 4 ∧
    after (exec (.setid 0x17 0x2A 0x51) (dev .runtime)) (fun t => (t.fatal, t.load .nvm 1)) =
      some (false, some 0x00) ∧
    after (exec (.config 0x17 0x01 0x9A) (dev .runtime)) (fun t => (t.fatal, t.load .nvm 0)) =
      some (false, some 0x97) := by decide

/-- `Syncing`; the last byte-less step of the bound, and one before it. -/
theorem hyps_Watchdog :
    (dev .runtime).receiverHalted = false ∧ (dev .runtime).rxq = [] ∧ (dev .runtime).phase = .syncing ∧
    (let s : State := { dev .runtime with phase := .verifying, wdt := 2 }
    s.receiverHalted = false ∧ s.rxq = [] ∧ s.phase.consumes = true ∧ s.phase ≠ .syncing ∧ s.wdt + 1 = s.par.wdtLimit ∧
      ({ s with wdt := 1 } : State).wdt + 1 ≠ s.par.wdtLimit) := by decide

/-- A counter below its bound and at it. -/
theorem hyps_ErrorCounts :
    let s : State := { dev .runtime with phase := .error, errCount := 255, rxPop := true }
    s.receiverHalted = false ∧ s.phase = .error ∧ s.taState = .rx ∧
      s.handoffPending = false ∧ s.resetPending = false ∧ ({ s with errCount := 254 } : State).errCount ≠ 255 := by
  decide

/-- A flush in progress, the shortest response, none. -/
theorem hyps_Finished :
    let s : State := { dev .runtime with phase := .finished }
    s.receiverHalted = false ∧ s.phase = .finished ∧ ({ s with taState := .trail } : State).taState ≠ .rx ∧
      s.taState = .rx ∧ 2 < ({ s with txLen := 3 } : State).txLen.toNat ∧ s.txLen = 2 := by decide

theorem hyps_Noise :
    let s : State := { dev .runtime with rxq := [0x12, 0xFF] }
    s.receiverHalted = false ∧ s.phase = .syncing ∧ (0x12 : Byte) ≠ sync ∧ s.rxq = 0x12 :: [0xFF] ∧ s.taState = .rx ∧
      s.txLen = 2 ∧ s.handoffPending = false ∧ s.resetPending = false := by decide

/-- V16. -/
theorem hyps_StraySyncTriples :
    let s : State := { dev .runtime with rxq := [0xFF, 0xFF, 0xFF, 0xFF, 0xFF, 0xE0, 0x17, 0x0B] }
    s.ready = true ∧ s.acc = 0 ∧ s.taState = .rx ∧ s.txLen = 2 ∧ s.handoffPending = false ∧ s.resetPending = false ∧
      s.rxq = List.replicate (3 * 1) sync ++ [0xFF, 0xFF, 0xE0, 0x17, 0x0B] := by decide

theorem hyps_Flush :
    let s : State := { dev .runtime with taState := .mute, txLen := 4 }
    s.fatal = false ∧ s.sysResetReq = false ∧ s.taState = .mute ∧ s.taIdx = 0 ∧ s.txLen.toNat < 511 ∧
      s.ports.txReady = true ∧ s.ports.txComplete = true := by decide

/-- Every answering runtime command queues something. -/
theorem hyps_Replies :
    (dev .runtime).atRest .runtime ∧ (dev .runtime).memoriesWf ∧ (dev .runtime).txSeeded ∧
    (0x17 : Byte) = (dev .runtime).ownByte ∧ 0 + 2 ≤ (dev .runtime).par.rxBufCap ∧ (0x2A : Byte).toNat < 128 ∧
    [Instr.reqdata 0x17 0x2B, .setv0 0x17 0x64 0xD7, .setv1 0x17 0x64 0xD6, .ping 0x17 0x0B, .setid 0x17 0x2A 0x51,
      .sensor 0x17 0x00 0xAB, .raw 0x17 cmdS [] 0x43].map
        (fun i => (checksumValid i, after (exec i (dev .runtime)) (fun t => t.txLen))) =
      [(true, some 14), (true, some 14), (true, some 14), (true, some 4), (true, some 4), (true, some 10),
        (true, some 4)] := by decide

/-- Both answers of the boot variant; V50 and V51 among them. -/
theorem hyps_RepliesBoot :
    (dev .boot).atRest .boot ∧ (dev .boot).memoriesWf ∧ (dev .boot).txSeeded ∧ (0x17 : Byte) = (dev .boot).ownByte ∧
    [Instr.bS 0x17 [] 0x43, .bI 0x17 [] 0x4D, .bW 0x17 [0x0A, 0, 1, 2, 3, 4] 0x25, .bW 0x17 [0x0B, 0, 1, 2, 3, 4] 0x24,
      .bR 0x17 [] 0x44, .raw 0x17 0x58 [] 0x3E].map
        (fun i => (i.wellFormed, checksumValid i, after (exec i (dev .boot)) (fun t => t.txByte 2))) =
      [(true, true, some statusY), (true, true, some statusY), (true, true, some statusY), (true, true, some statusN),
        (true, true, some statusY), (true, true, some statusN)] := by decide

/-- V67, and the wait of V68. -/
theorem hyps_DrainHangs :
    let s : State := { dev .runtime with
      taState := .drain
      phase := .finished
      ports := { pins .runtime with txComplete := false } }
    let u : State := { s with taState := .tx, ports := { pins .runtime with txReady := false } }
    s.fatal = false ∧ s.stopped = false ∧ s.sysResetReq = false ∧ s.phase = .finished ∧
      (s.taState = .drain ∧ s.ports.txComplete = false) ∧
      u.fatal = false ∧ u.stopped = false ∧ u.sysResetReq = false ∧ u.phase = .finished ∧
      (u.taState = .tx ∧ u.ports.txReady = false) := by decide

theorem hyps_FatalBlockStands :
    let s : State := { dev .runtime with fatal := true, inputs := [⟨pins .runtime, .tb⟩] }
    let u : State := { dev .boot with stopped := true, sysResetReq := true, inputs := [⟨pins .boot, .svc⟩] }
    let w : State := { dev .runtime with stopped := true, inputs := [⟨pins .runtime, .tb⟩] }
    s.inputs = ⟨pins .runtime, .tb⟩ :: [] ∧ s.fatal = true ∧ s.sysResetReq = false ∧
      u.inputs = ⟨pins .boot, .svc⟩ :: [] ∧ u.stopped = true ∧
      w.inputs = ⟨pins .runtime, .tb⟩ :: [] ∧ w.stopped = true ∧ w.sysResetReq = false := by decide

/-- An unencoded phase, and a dispatch of an opcode of the other set, in either variant. -/
theorem hyps_FatalCausesHalt :
    ({ dev .runtime with phase := .illegal 6 } : State).receiverHalted = false ∧
    ({ dev .runtime with phase := .illegal 6 } : State).phase = .illegal 6 ∧
    ({ dev .runtime with phase := .pending } : State).phase = .pending ∧
    isCommand ({ dev .runtime with phase := .pending } : State).opcode = false ∧
    ({ dev .boot with phase := .pending, opcode := opPing } : State).variant = .boot ∧
    ({ dev .boot with phase := .pending, opcode := opPing } : State).opcode ≠ opRaw := by decide

/-- The least and the greatest capacity that is too small. -/
theorem hyps_TelemetryOverflow :
    (dev .runtime).ready = true ∧ (dev .runtime).variant = .runtime ∧ (dev .runtime).acc = 0 ∧
    (dev .runtime).txLen = 2 ∧ (0x17 : Byte) = (dev .runtime).ownByte ∧ checksumValid (.reqdata 0x17 0x2B) = true ∧
    checksumValid (.setv0 0x17 0x64 0xD7) = true ∧ checksumValid (.setv1 0x17 0x64 0xD6) = true ∧
    (2 ≤ ({ Params.example with txBufCap := 2 } : Params).txBufCap ∧
      ({ Params.example with txBufCap := 13 } : Params).txBufCap < 14) := by decide

/-- A plain reset, and one that cuts into the page write of V50's request in `Pending`: the page's first byte is torn. -/
theorem hyps_ResetLoads :
    ({ dev .boot with inputs := [⟨pins .runtime, .reset none⟩] } : State).inputs =
      ⟨pins .runtime, .reset none⟩ :: [] ∧
    (let s : State := (dev .boot).receive [0xFF, 0xFF, 0x55, 0x17, 0x06, 0x57, 0x0A, 0, 1, 2, 3, 4, 0x25]
    s.clearStrobes.pageWriteDue = true ∧ s.memoriesWf ∧ 0 < s.par.pageSize ∧
      after (step { s with inputs := [⟨pins .boot, .reset (some [0xEE])⟩] }) (fun t => (t.load .flash 0, t.load .flash 4)) =
        some (some 0xEE, none)) := by decide

/-- At a frame boundary the receiver's registers agree, whatever the cursor and the parameters. -/
theorem heard_receiverInv (v : Variant) (bytes : List Byte) (cursor : Nat) (p : Params) :
    ({ heard v bytes with cursor := cursor, par := p } : State).receiverInv := by
  cases v <;> constructor <;> simp [heard, dev, State.powerUp, State.afterReset]

/-- For the statements about every step: an initial state that has the invariants, and a step with a next state; the
cursor on its last page, and past it at `APP_LIMIT`. -/
theorem hyps_StepKeeps :
    let s : State := heard .boot [0xFF, 0xFF, 0x55, 0x17, 0x00, 0x53, 0x43]
    s.memoriesWf ∧ s.txSeeded ∧ s.lineSafe = true ∧ s.identityFresh ∧ s.cursorAligned ∧ (devAt 60).cursorAligned ∧
      (devAt 64).cursorAligned ∧ s.par.appLimit % s.par.pageSize = 0 ∧ 2 ≤ s.par.rxBufCap ∧ 14 ≤ s.par.txBufCap ∧
      s.variant = .boot ∧ after (step s) (fun t => t.txLen) = some 3 := by decide

/-- The last page of a flash that ends with the application area: the cursor is `2 ^ FLASH_ADDR_W` after it, and the
next page has no successor (R352, R356). -/
theorem test_last_page_of_flash :
    let p : Params := { Params.example with flashAddrW := 6 }
    let bytes : List Byte := [0xFF, 0xFF, 0x55, 0x17, 0x06, 0x57, 0x0A, 0x00, 0x01, 0x02, 0x03, 0x04, 0x25]
    p.Legal .boot ∧ 60 + p.pageSize = 2 ^ p.flashAddrW ∧ after (step { heard .boot bytes with cursor := 60, par := p }) (fun t => t.cursor) = some 64 ∧
      step { heard .boot bytes with cursor := 64, par := p } = .fault .pageBeyondLimit := by
  refine ⟨by decide, by decide, by decide, rfl⟩

/-- V50's frame with the cursor at the limit, and with a flash that ends inside the page; the registers agree by
`heard_receiverInv`. -/
theorem hyps_OnlyPageWriteFaults :
    let bytes : List Byte := [0xFF, 0xFF, 0x55, 0x17, 0x06, 0x57, 0x0A, 0x00, 0x01, 0x02, 0x03, 0x04, 0x25]
    step { heard .boot bytes with cursor := 64 } = .fault .pageBeyondLimit ∧
    (devAt 64).cursorAligned ∧ Params.example.appLimit % Params.example.pageSize = 0 ∧
    Params.example.appLimit ≤ 2 ^ Params.example.flashAddrW ∧ 2 ≤ Params.example.rxBufCap ∧
    step { heard .boot bytes with cursor := 30, par := { Params.example with flashAddrW := 5 } } =
      .fault .flashRange := ⟨rfl, by decide, by decide, by decide, by decide, rfl⟩

/-- The flash of 32 bytes ends within the page at 30. -/
theorem hyps_PageWritePastFlash :
    let s : State := { devAt 30 with par := { Params.example with flashAddrW := 5 } }
    s.atRest .boot ∧ (0x17 : Byte) = s.ownByte ∧ [1, 2, 3, (4 : Byte)].length = s.par.pageSize ∧
      s.par.pageSize + 4 ≤ s.par.rxBufCap ∧ sumNat [1, 2, 3, 4] = (0x0A : Byte).toNat + 256 * (0x00 : Byte).toNat ∧
      s.cursor < s.par.appLimit ∧ 2 ^ s.par.flashAddrW < s.cursor + s.par.pageSize ∧
      checksumValid (.bW 0x17 [0x0A, 0, 1, 2, 3, 4] 0x25) = true := by decide

/-- A burst that counts, and a tick of a block whose reset is requested but not due. -/
theorem hyps_ErrorCountNeverFalls :
    let u : State := { dev .boot with
      par := { Params.example with tReset := 2 }
      sysResetReq := true
      inputs := [⟨pins .boot, .tb⟩] }
    let s : State := heard .runtime [0xFF, 0xFF, 0xE0, 0x17, 0x0C]
    s.inputs = ⟨pins .runtime, .burst⟩ :: [] ∧ (∀ torn, Event.burst ≠ .reset torn) ∧ Event.burst ≠ .tb ∧
      after (step s) (fun t => t.errCount) = some 1 ∧
      u.inputs = ⟨pins .boot, .tb⟩ :: [] ∧ (∀ torn, Event.tb ≠ .reset torn) ∧ u.resetTicks + 1 < u.par.tReset ∧
      after (step u) (fun t => t.errCount) = some 0 := by
  refine ⟨rfl, ?_, by decide, by decide, rfl, ?_, by decide, by decide⟩
  · intro torn h
    exact Event.noConfusion h
  · intro torn h
    exact Event.noConfusion h

end Sys2Proof.Tests
end

/-! # The statements of 00_scope.md: a step runs a frame, a frame is a run of byte steps, reset is safe -/

namespace Sys2Proof.Machine

/-! ## A burst runs the decoded instruction -/

/-- The beginning of a step whose input is scripted (log 1). -/
theorem State.beginStep_of_inputs {s : State} {p : Ports} {e : Event} {more : List Input}
    (h : s.inputs = ⟨p, e⟩ :: more) :
    s.beginStep = { s.clearStrobes with ports := p, inputs := more, clock := s.clock + 1 } := by
  simp only [State.beginStep, State.nextInput, h]

/-- A step with a scripted input is that input's event, in the state that the step has begun (R57). -/
theorem step_of_inputs {s : State} {p : Ports} {e : Event} {more : List Input} (h : s.inputs = ⟨p, e⟩ :: more) :
    step s = ({ s.clearStrobes with ports := p, inputs := more, clock := s.clock + 1 } : State).onEvent e := by
  rw [step, State.beginStep_of_inputs h]
  simp only [State.nextInput, h]

/-- A burst at a frame boundary executes the frame that opens the receive interface (R2; log 2). -/
theorem State.burst_of_decode {s : State} {i : Instr} {rest : List Byte} (hs : s.ready = true)
    (hd : decode s.variant s.rxq = .ok (i, rest)) : s.burst = exec i { s with rxq := rest } := by
  have hf : s.fetch = some (i, rest) := by simp only [State.fetch, hs, if_true, hd]
  simp only [State.burst, hf]

/-- Settles O5: the begun state differs from `s` in none of what `ready` and `decode` read. -/
theorem burstRunsDecodedInstruction : Obligations.BurstRunsDecodedInstruction := by
  intro s p more i rest hi hs hd
  rw [step_of_inputs hi]
  exact State.burst_of_decode hs hd

/-! ## The reset state -/

/-- After the reset sequence the receiver stands at a frame boundary and its registers agree (R388, R431). -/
theorem State.afterReset_receiverInv (par : Params) (nvm flash : Memory) (ports : Ports) (inputs : List Input)
    (clock : Nat) : (State.afterReset par nvm flash ports inputs clock).receiverInv := by
  constructor <;> simp [State.afterReset]

/-- The reset sequence empties the buffers and keeps the store and the flash in canonical form (R66, R434). -/
theorem State.afterReset_memoriesWf {par : Params} {nvm flash : Memory} (ports : Ports) (inputs : List Input)
    (clock : Nat) (hn : Memory.wf (unlisted par .nvm) nvm) (hf : Memory.wf (unlisted par .flash) flash) :
    (State.afterReset par nvm flash ports inputs clock).memoriesWf :=
  ⟨Memory.wf_nil, Memory.wf_nil, hn, hf⟩

/-- The reset sequence puts the cursor on the first page (R50, R88). -/
theorem State.afterReset_cursorAligned (par : Params) (nvm flash : Memory) (ports : Ports) (inputs : List Input)
    (clock : Nat) : (State.afterReset par nvm flash ports inputs clock).cursorAligned :=
  ⟨Nat.zero_mod _, Nat.zero_le _⟩

/-- The example parameters are legal for either variant (R10). -/
theorem Params.example_legal (v : Variant) : Params.example.Legal v := by
  cases v <;> decide

/-- The platform's parameters are legal for the strap at power-up (R10; log 6). -/
theorem Config.params_legal : Config.params.Legal Config.portsAtReset.strap := by
  unfold Config.params
  split
  · next h => exact h
  · exact Params.example_legal _

/-- Settles O52: reset is a power-up, which is the reset sequence over empty memories. -/
theorem resetIsSafe : Obligations.ResetIsSafe :=
  ⟨State.afterReset_memoriesWf _ _ _ Memory.wf_nil Memory.wf_nil, ⟨rfl, rfl⟩, rfl, ⟨rfl, rfl⟩,
    State.afterReset_cursorAligned .., State.afterReset_receiverInv .., Config.params_legal⟩

/-! ## What a byte leaves unchanged -/

/-- A byte rule does not touch the receive interface. -/
theorem State.consume_rxq (s : State) (b : Byte) : (s.consume b).rxq = s.rxq := by
  obtain ⟨_, _, _, _, _, _, _, _, _, _, _, _, _, _, _, _, he, -⟩ :=
    State.byteRule_frame { s with wdt := 0, rxPop := true } b
  rw [State.consume, he]

theorem State.feed_rxq (bytes : List Byte) (s : State) : (s.feed bytes).1.rxq = s.rxq := by
  induction bytes generalizing s with
  | nil => rfl
  | cons b bs ih =>
    rw [State.feed]
    split
    · exact (ih _).trans (s.consume_rxq b)
    · rfl

/-- Feeding leaves no more bytes than were there. -/
theorem State.feed_rest_length_le (bytes : List Byte) (s : State) : (s.feed bytes).2.length ≤ bytes.length := by
  induction bytes generalizing s with
  | nil => exact Nat.le_refl _
  | cons b bs ih =>
    rw [State.feed]
    split
    · exact (ih _).trans (Nat.le_succ _)
    · exact Nat.le_refl _

theorem State.receive_variant (s : State) (frame : List Byte) : (s.receive frame).variant = s.variant := by
  obtain ⟨_, _, _, _, _, _, _, _, _, _, _, _, _, _, _, _, _, _, _, he, -⟩ := s.receive_frame frame
  rw [he]

/-- The receiver has read the opcode byte `op` of the frame it is in (R35, R164, R165). -/
def State.opcodeRead (s : State) (op : Byte) : Prop :=
  s.opcode = op ∧ s.phase ≠ .syncing ∧ s.phase ≠ .awaiting

/-- After the opcode byte no byte of the frame changes the opcode (R35). -/
theorem State.opcodeRead_byteRule {s : State} {op : Byte} (b : Byte) (h : s.opcodeRead op) :
    (s.byteRule b).opcodeRead op := by
  obtain ⟨ho, hsync, hawait⟩ := h
  unfold State.byteRule
  split
  · next hp => exact absurd hp hsync
  · next hp => exact absurd hp hawait
  · unfold State.rxGetAddress
    repeat' split
    all_goals simp_all [State.opcodeRead, State.raiseFraming, State.raiseFatal]
  · unfold State.rxReading State.rxPayloadEnd
    simp only
    repeat' split
    all_goals simp_all [State.opcodeRead, State.raiseFraming]
  · unfold State.rxEating
    repeat' split
    all_goals simp_all [State.opcodeRead]
  · unfold State.rxVerifying
    simp only
    repeat' split
    all_goals simp_all [State.opcodeRead, State.raiseFraming]
  all_goals exact ⟨ho, hsync, hawait⟩

theorem State.opcodeRead_feed (bytes : List Byte) {s : State} {op : Byte} (h : s.opcodeRead op) :
    (s.feed bytes).1.opcodeRead op := by
  induction bytes generalizing s with
  | nil => exact h
  | cons b bs ih =>
    rw [State.feed]
    split
    · exact ih (State.opcodeRead_byteRule (s := { s with wdt := 0, rxPop := true }) b h)
    · exact h

/-- Whatever becomes of a frame, the opcode register holds its third byte (R35, R164, R165). -/
theorem State.receive_opcode (s : State) (op : Byte) (rest : List Byte) (hs : s.ready = true) :
    (s.receive (sync :: sync :: op :: rest)).opcode = op := by
  cases hk : isKnown s.variant op with
  | false => rw [State.receive_unknown s op rest hs hk]
  | true =>
    rw [State.receive, State.feed_head s.clearStrobes op rest hs hk]
    exact (State.opcodeRead_feed rest ⟨rfl, Phase.noConfusion, Phase.noConfusion⟩).1

/-- The checksum byte leaves `RXBUF` as it is (R176). -/
theorem State.feed_checksum_rxbuf (s : State) (c : Byte) (hh : s.receiverHalted = false) (hp : s.phase = .verifying) :
    (s.feed [c]).1.rxbuf = s.rxbuf := by
  rw [State.feed_takes _ _ _ (State.takesByte_of s hh (by rw [hp]; rfl))]
  simp only [State.feed, State.consume, State.byteRule, hp, State.rxVerifying]
  repeat' split
  all_goals rfl

/-- A self-describing frame that reaches `Pending` has its command byte in `RXBUF` (R123, R171): a frame with another
address or an address or a length out of range does not reach it (R167, R170, R172). -/
theorem State.receive_self_command (s : State) (a cmd c : Byte) (p : List Byte) (hs : s.ready = true)
    (hl : p.length ≤ 255) (hp : (s.receive (encodeSelf a cmd p c)).phase = .pending) :
    (s.receive (encodeSelf a cmd p c)).requestCommand = cmd := by
  obtain ⟨hh, -, -⟩ := State.ready_running hs
  have hlen : (BitVec.ofNat 8 p.length).toNat = p.length := by simp; omega
  have henc : encodeSelf a cmd p c =
      sync :: sync :: opRaw :: a :: BitVec.ofNat 8 p.length :: cmd :: (p ++ [c]) := rfl
  have hraw : isKnown s.variant opRaw = true := by cases s.variant <;> rfl
  rw [henc] at hp ⊢
  by_cases hrange : 127 < a.toNat
  · rw [State.receive_of_feed (State.feed_addrRange s.clearStrobes opRaw a _ hs hraw rfl hrange)] at hp
    exact nomatch hp
  by_cases hown : a = s.ownByte
  · by_cases hcap : p.length + 2 ≤ s.par.rxBufCap
    · rw [State.receive, State.feed_own_self s.clearStrobes a cmd p [c] hs hown hl hcap]
      exact State.rxByte_of_filled s (BitVec.ofNat 8 p.length :: cmd :: p) (i := 1) (by simp) _
        (State.feed_checksum_rxbuf _ c hh rfl)
    · rw [State.receive_of_feed (State.feed_lenRange s.clearStrobes a (BitVec.ofNat 8 p.length) _ hs hown
        (by rw [hlen]; exact Nat.not_le.mp hcap))] at hp
      exact nomatch hp
  · have heaten := State.feed_foreign_self s.clearStrobes a (cmd :: (p ++ [c])) [] (BitVec.ofNat 8 p.length) hs
      (Nat.not_lt.mp hrange) hown (by rw [hlen]; simp)
    rw [List.append_nil] at heaten
    rw [State.receive_of_feed heaten] at hp
    exact nomatch hp

/-! ## The dispatch of a whole frame is the `Pending` step -/

theorem State.pendingPhase_runtime {s : State} (hv : s.variant = .runtime) :
    s.pendingPhase = .next (s.dispatchRuntime s.opcode).endDispatch := by
  simp only [State.pendingPhase, hv]

theorem State.pendingPhase_boot {s : State} (hv : s.variant = .boot) (ho : s.opcode = opRaw) :
    s.pendingPhase = s.dispatchBoot s.requestCommand := by
  simp only [State.pendingPhase, hv, ho, if_true]

/-- The outcome `o` is that of the step in `Pending`, if `frame` is received into `Pending`. -/
def DispatchedAs (s : State) (frame : List Byte) (o : Result) : Prop :=
  (s.receive frame).receiverHalted = false → (s.receive frame).phase = .pending →
    o = (s.receive frame).clearStrobes.pendingPhase

/-- A command's frame in the runtime variant (R181). -/
theorem DispatchedAs.command {s : State} {rest : List Byte} {body : State → State} (op : Byte) (hs : s.ready = true)
    (hv : s.variant = .runtime) (hb : ∀ r : State, r.dispatchRuntime op = body r) :
    DispatchedAs s (sync :: sync :: op :: rest) (runFrame (sync :: sync :: op :: rest) body s) := by
  intro hh hp
  rw [runFrame_pending _ body s _ hs rfl hh hp,
    State.pendingPhase_runtime (s := (s.receive _).clearStrobes) ((s.receive_variant _).trans hv),
    State.clearStrobes_opcode, State.receive_opcode s op rest hs, hb]

/-- A command of fixed length, in either variant: in the boot variant it does not reach `Pending` (R341). -/
theorem DispatchedAs.fixed {s : State} {rest : List Byte} {body : State → State} (op : Byte) (hs : s.ready = true)
    (hk : isKnown .boot op = false) (hb : ∀ r : State, r.dispatchRuntime op = body r) :
    DispatchedAs s (sync :: sync :: op :: rest) (runFrame (sync :: sync :: op :: rest) body s) := by
  cases hv : s.variant with
  | runtime => exact DispatchedAs.command op hs hv hb
  | boot =>
    intro _ hp
    rw [State.receive_unknown s op rest hs (hv ▸ hk)] at hp
    exact nomatch hp

/-- A response frame or a boot answer does not reach `Pending` (R166, R165). -/
theorem DispatchedAs.discarded {s : State} {rest : List Byte} {o : Result} (op : Byte) (hs : s.ready = true)
    (hop : isCommand op = false) : DispatchedAs s (sync :: sync :: op :: rest) o :=
  fun _ hp => absurd hp (State.receive_discarded s op rest hs hop).1

/-- The `Pending` step after a self-describing frame in the boot variant dispatches the command byte received (R345). -/
theorem State.receive_self_pendingPhase {s : State} (a cmd c : Byte) (p : List Byte) (hs : s.ready = true)
    (hv : s.variant = .boot) :
    (s.receive (encodeSelf a cmd p c)).clearStrobes.pendingPhase =
      (s.receive (encodeSelf a cmd p c)).clearStrobes.dispatchBoot
        (s.receive (encodeSelf a cmd p c)).clearStrobes.requestCommand :=
  State.pendingPhase_boot ((s.receive_variant _).trans hv) (s.receive_opcode opRaw _ hs)

/-- That command byte is the frame's own. -/
theorem State.receive_request_pendingPhase {s : State} {a cmd c : Byte} {p : List Byte} (hs : s.ready = true)
    (hv : s.variant = .boot) (hl : p.length ≤ 255) (hp : (s.receive (encodeSelf a cmd p c)).phase = .pending) :
    (s.receive (encodeSelf a cmd p c)).clearStrobes.pendingPhase =
      (s.receive (encodeSelf a cmd p c)).clearStrobes.dispatchBoot cmd := by
  rw [State.receive_self_pendingPhase a cmd c p hs hv]
  exact congrArg _ (s.receive_self_command a cmd c p hs hl hp)

/-- A boot request's frame in the boot variant (R345). -/
theorem DispatchedAs.request {s : State} {a c : Byte} {p : List Byte} {body : State → State} (cmd : Byte)
    (hs : s.ready = true) (hv : s.variant = .boot) (hl : p.length ≤ 255)
    (hb : ∀ r : State, r.dispatchBoot cmd = .next (body r).endDispatch) :
    DispatchedAs s (encodeSelf a cmd p c) (runFrame (encodeSelf a cmd p c) body s) := by
  intro hh hp
  rw [runFrame_pending _ body s _ hs rfl hh hp, State.receive_request_pendingPhase hs hv hl hp, hb]

/-- The frame of an instruction that is received into `Pending` is dispatched as the service step dispatches it, by the
variant, the opcode and the command byte that the receiver holds (R181, R345). -/
theorem exec_dispatchedAs {s : State} {i : Instr} (hs : s.ready = true) (hw : i.wellFormed = true) :
    DispatchedAs s (encode i) (exec i s) := by
  have hraw : ∀ r : State, r.dispatchRuntime opRaw = r.rawBody := fun r => r.dispatchRuntime_eq.2.2.2.2.2.2.2.2
  cases i with
  | reqdata a c => exact DispatchedAs.fixed opReqdata hs rfl (fun r => r.dispatchRuntime_eq.1)
  | setv0 a p c => exact DispatchedAs.fixed opSetv0 hs rfl (fun r => r.dispatchRuntime_eq.2.1)
  | setv1 a p c => exact DispatchedAs.fixed opSetv1 hs rfl (fun r => r.dispatchRuntime_eq.2.2.1)
  | ping a c => exact DispatchedAs.fixed opPing hs rfl (fun r => r.dispatchRuntime_eq.2.2.2.1)
  | setlimit a v c => exact DispatchedAs.fixed opSetlimit hs rfl (fun r => r.dispatchRuntime_eq.2.2.2.2.1)
  | setid a v c => exact DispatchedAs.fixed opSetid hs rfl (fun r => r.dispatchRuntime_eq.2.2.2.2.2.1)
  | config a f c => exact DispatchedAs.fixed opConfig hs rfl (fun r => r.dispatchRuntime_eq.2.2.2.2.2.2.1)
  | sensor a v c => exact DispatchedAs.fixed opSensor hs rfl (fun r => r.dispatchRuntime_eq.2.2.2.2.2.2.2.1)
  | pingR a c => exact DispatchedAs.discarded opPingR hs rfl
  | setidR a c => exact DispatchedAs.discarded opSetidR hs rfl
  | dataR a w0 w1 w2 w3 w4 c => exact DispatchedAs.discarded opDataR hs rfl
  | sensorR a x y z c => exact DispatchedAs.discarded opSensorR hs rfl
  | rawR a c => exact DispatchedAs.discarded opRawR hs rfl
  | bY c => exact DispatchedAs.discarded statusY hs rfl
  | bN c => exact DispatchedAs.discarded statusN hs rfl
  | raw a cmd p c =>
    simp only [exec, execRaw]
    split
    · next hv => exact DispatchedAs.command opRaw hs hv hraw
    · next hv =>
      intro hh hp
      exact (runBootFrame_pending _ _ s _ hs rfl hh hp).trans
        (State.receive_self_pendingPhase a cmd c p hs hv).symm
  | bS a p c =>
    simp only [exec, execBS]
    split
    · next hv => exact DispatchedAs.command opRaw hs hv hraw
    · next hv => exact DispatchedAs.request cmdS hs hv (of_decide_eq_true hw) (fun r => r.dispatchBoot_eq.1)
  | bI a p c =>
    simp only [exec, execBI]
    split
    · next hv => exact DispatchedAs.command opRaw hs hv hraw
    · next hv => exact DispatchedAs.request cmdI hs hv (of_decide_eq_true hw) (fun r => r.dispatchBoot_eq.2.1)
  | bW a p c =>
    simp only [exec, execBW]
    split
    · next hv => exact DispatchedAs.command opRaw hs hv hraw
    · next hv =>
      intro hh hp
      exact (runBootFrame_pending _ _ s _ hs rfl hh hp).trans
        ((State.dispatchBoot_eq _).2.2.1.symm.trans
          (State.receive_request_pendingPhase hs hv (of_decide_eq_true hw) hp).symm)
  | bR a p c =>
    simp only [exec, execBR]
    split
    · next hv => exact DispatchedAs.command opRaw hs hv hraw
    · next hv => exact DispatchedAs.request cmdR hs hv (of_decide_eq_true hw) (fun r => r.dispatchBoot_eq.2.2.2)

/-! ## A frame is a run of service steps -/

theorem State.serviceStep_error {s : State} (hh : s.receiverHalted = false) (hp : s.phase = .error) :
    s.serviceStep = .next s.errorPhase := by
  simp [State.serviceStep, hh, hp]

theorem State.serviceStep_pending {s : State} (hh : s.receiverHalted = false) (hp : s.phase = .pending) :
    s.serviceStep = s.pendingPhase := by
  simp [State.serviceStep, hh, hp]

/-- A run of one service step is that step, its strobes its own. -/
theorem State.serviceRun_one (s : State) : s.serviceRun 1 = s.clearStrobes.serviceStep := by
  rw [State.serviceRun]
  cases s.clearStrobes.serviceStep <;> rfl

/-- Receiving a frame at a frame boundary is a run of at most as many service steps as it has bytes (R160, R189). The
run has at least one step, so the strobes of `s` are gone at its end. -/
theorem State.serviceRun_receive (s : State) (frame : List Byte) (hs : s.ready = true) (hne : frame ≠ [])
    (hcap : 2 ≤ s.par.rxBufCap) :
    ∃ k, k ≤ frame.length ∧
      ∀ m, (s.receiving (frame ++ s.rxq)).serviceRun (k + m) = (s.receive frame).serviceRun m := by
  obtain ⟨hh, hp, -⟩ := State.ready_running hs
  have hfits : s.clearStrobes.readingFits := fun hr => nomatch hp.symm.trans hr
  obtain ⟨k, hk, hrun⟩ := State.serviceRun_feed frame s.rxq s.clearStrobes hcap hfits rfl rfl
  have hpos : (s.clearStrobes.feed frame).2.length < frame.length := by
    obtain ⟨b, bs, rfl⟩ := List.exists_cons_of_ne_nil hne
    rw [State.feed_takes _ b bs (State.takesByte_of s.clearStrobes hh (by rw [State.clearStrobes_phase, hp]; rfl))]
    exact Nat.lt_succ_of_le (State.feed_rest_length_le bs _)
  obtain ⟨j, rfl⟩ : ∃ j, k = j + 1 := ⟨k - 1, by omega⟩
  refine ⟨j + 1, by omega, fun m => ?_⟩
  have hunread : s.receive frame =
      (s.clearStrobes.feed frame).1.receiving ((s.clearStrobes.feed frame).2 ++ s.rxq) := by
    rw [State.receive, State.unread, State.feed_rxq]
    rfl
  rw [hunread, ← hrun m, Nat.add_right_comm j 1 m]
  rfl

/-- Settles O7: after the steps that receive the frame there is none for a frame eaten or dropped, and one more for a
frame counted as an error or dispatched. -/
theorem frameIsRunOfServiceSteps : Obligations.FrameIsRunOfServiceSteps := by
  intro s i hs hw hcap
  have hne : encode i ≠ [] := by cases i <;> nofun
  obtain ⟨k, hk, hrun⟩ := State.serviceRun_receive s (encode i) hs hne hcap
  suffices h : ∃ m ≤ 1, (s.receive (encode i)).serviceRun m = exec i s by
    obtain ⟨m, hm, he⟩ := h
    exact ⟨k + m, by omega, (hrun m).trans he⟩
  rcases exec_ends (s := s) (i := i) rfl with ⟨hr, -⟩ | ⟨-, he⟩ | ⟨-, hh, hp, he⟩ | ⟨-, hh, hp, -⟩
  · exact absurd hs (by simp [hr])
  · exact ⟨0, Nat.zero_le 1, he.symm⟩
  · refine ⟨1, Nat.le_refl 1, ?_⟩
    rw [State.serviceRun_one, State.serviceStep_error (s := (s.receive _).clearStrobes) hh hp, he]
  · refine ⟨1, Nat.le_refl 1, ?_⟩
    rw [State.serviceRun_one, State.serviceStep_pending (s := (s.receive _).clearStrobes) hh hp,
      exec_dispatchedAs hs hw hh hp]

end Sys2Proof.Machine

/-! # The statements of 10_state.md: what an instruction and a step leave unchanged -/

namespace Sys2Proof.Machine

/-! ## The record and the line -/

/-- What only a dispatch, the error count and reset change: the parameters and the variant (R10, R51), the error counter
(R43), the identity and configuration with their store (R46, R47, R90), the page cursor with the flash (R50, R93). -/
structure Record where
  /-- The parameters. -/
  par : Params
  /-- The variant. -/
  variant : Variant
  /-- The error counter. -/
  errCount : Byte
  /-- The identity. -/
  ownId : BitVec 7
  /-- The configuration byte. -/
  cfg : Byte
  /-- The page cursor. -/
  cursor : Nat
  /-- The identity store. -/
  nvm : Memory
  /-- The executable memory. -/
  flash : Memory

/-- The record of a state. -/
def State.record (s : State) : Record where
  par := s.par
  variant := s.variant
  errCount := s.errCount
  ownId := s.ownId
  cfg := s.cfg
  cursor := s.cursor
  nvm := s.nvm
  flash := s.flash

/-- What only `Finished`, the turnaround controller and reset change: the turnaround timer and index, the transmit
registers, the stop and the outputs of the deferred transfers (R48, R52, R53, R58, R65). -/
def State.transmitter (s : State) : BitVec 16 × BitVec 9 × Byte × Byte × Bool × Bool × Bool :=
  (s.taTimer, s.taIdx, s.txChk, s.txData, s.stopped, s.bootHandoff, s.sysResetReq)

/-- The turnaround state with the two line outputs: a halt forces them to receive mode (R52, R59, R386). -/
def State.line (s : State) : TaState × Bool × Bool := (s.taState, s.de, s.re)

/-- From `s` to `t` the line stands: neither the transmitter nor the line moves, unless the block halts. -/
structure State.LineStands (s t : State) : Prop where
  /-- The transmitter is as before, halted or not. -/
  transmitter : t.transmitter = s.transmitter
  /-- Where no halt is, none was, and the line is as before. -/
  running : t.fatal = false → s.fatal = false ∧ t.line = s.line

/-- From `s` to `t` the record is kept and the line stands. -/
structure State.Quiet (s t : State) : Prop extends State.LineStands s t where
  /-- The record is kept. -/
  record : t.record = s.record

theorem State.LineStands.trans {s t u : State} (h : s.LineStands t) (h' : t.LineStands u) : s.LineStands u where
  transmitter := h'.transmitter.trans h.transmitter
  running hu :=
    have ⟨ht, hl⟩ := h'.running hu
    ⟨(h.running ht).1, hl.trans (h.running ht).2⟩

theorem State.Quiet.trans {s t u : State} (h : s.Quiet t) (h' : t.Quiet u) : s.Quiet u where
  toLineStands := h.toLineStands.trans h'.toLineStands
  record := h'.record.trans h.record

theorem State.LineStands.of_eq {s t : State} (ho : t.transmitter = s.transmitter) (hf : t.fatal = s.fatal)
    (hl : t.line = s.line) : s.LineStands t := ⟨ho, fun h => ⟨hf ▸ h, hl⟩⟩

/-- A change of other fields alone is quiet. -/
theorem State.Quiet.of_eq {s t : State} (hr : t.record = s.record) (ho : t.transmitter = s.transmitter)
    (hf : t.fatal = s.fatal) (hl : t.line = s.line) : s.Quiet t :=
  ⟨.of_eq ho hf hl, hr⟩

theorem State.Quiet.refl (s : State) : s.Quiet s := .of_eq rfl rfl rfl rfl

/-- What the store reads as is in the parameters and the store's own memory. -/
theorem State.load_nvm_congr {s t : State} (hpar : t.par = s.par) (hnvm : t.nvm = s.nvm) (n : Nat) :
    t.load .nvm n = s.load .nvm n := by
  simp only [State.load, State.memory, hpar, hnvm]

theorem State.load_nvm_of_record {s t : State} (h : t.record = s.record) (n : Nat) : t.load .nvm n = s.load .nvm n :=
  State.load_nvm_congr (congrArg Record.par h) (congrArg Record.nvm h) n

theorem State.load_flash_of_record {s t : State} (h : t.record = s.record) (n : Nat) :
    t.load .flash n = s.load .flash n := by
  have hpar : t.par = s.par := congrArg Record.par h
  have hflash : t.flash = s.flash := congrArg Record.flash h
  simp only [State.load, State.memory, hpar, hflash]

/-- A halt is quiet (R386). -/
theorem State.raiseFatal_quiet (s : State) (c : FatalCode) : s.Quiet (s.raiseFatal c) := ⟨⟨rfl, nofun⟩, rfl⟩

theorem State.clearStrobes_quiet (s : State) : s.Quiet s.clearStrobes := .of_eq rfl rfl rfl rfl

theorem State.unread_quiet (s : State) (bytes : List Byte) : s.Quiet (s.unread bytes) := .of_eq rfl rfl rfl rfl

theorem State.call_quiet (s : State) (c : Call) : s.Quiet (s.call c) := .of_eq rfl rfl rfl rfl

theorem State.endDispatch_quiet (s : State) : s.Quiet s.endDispatch := by
  unfold State.endDispatch
  split
  · exact .refl s
  · exact .of_eq rfl rfl rfl rfl

theorem State.Quiet.endDispatch {s t : State} (h : s.Quiet t) : s.Quiet t.endDispatch := h.trans t.endDispatch_quiet

/-- What follows in a step that may have halted is quiet when it is (R390). -/
theorem State.Quiet.andThen {s t : State} (h : s.Quiet t) {f : State → State} (hf : t.Quiet (f t)) :
    s.Quiet (t.andThen f) := by
  unfold State.andThen
  split
  · exact h
  · exact h.trans hf

theorem State.txAddByte_quiet (s : State) (b : Byte) : s.Quiet (s.txAddByte b) := by
  unfold State.txAddByte
  split
  · exact s.raiseFatal_quiet _
  · exact .of_eq rfl rfl rfl rfl

/-- Queueing a response is quiet (R270). -/
theorem State.txAddBytes_quiet (bytes : List Byte) (s : State) : s.Quiet (s.txAddBytes bytes) := by
  induction bytes generalizing s with
  | nil => exact .refl s
  | cons b bs ih =>
    rw [State.txAddBytes]
    split
    · exact s.txAddByte_quiet b
    · exact (s.txAddByte_quiet b).trans (ih _)

theorem State.Quiet.txAddBytes {s t : State} (h : s.Quiet t) (bytes : List Byte) : s.Quiet (t.txAddBytes bytes) :=
  h.trans (t.txAddBytes_quiet bytes)

/-- A byte rule is quiet (R161 to R176). -/
theorem State.byteRule_quiet (s : State) (b : Byte) : s.Quiet (s.byteRule b) := by
  obtain ⟨_, _, _, _, _, _, _, _, _, _, _, _, _, _, _, _, he, ho⟩ := s.byteRule_frame b
  rw [he]
  rcases ho with ⟨rfl, -, rfl, rfl, rfl⟩ | ⟨rfl, -, -, -, -⟩
  · exact .of_eq rfl rfl rfl rfl
  · exact ⟨⟨rfl, nofun⟩, rfl⟩

theorem State.consume_quiet (s : State) (b : Byte) : s.Quiet (s.consume b) :=
  Quiet.trans (t := { s with wdt := 0, rxPop := true }) (.of_eq rfl rfl rfl rfl) (State.byteRule_quiet _ b)

/-- Receiving a frame's bytes is quiet (R160, R188). -/
theorem State.feed_quiet (bytes : List Byte) (s : State) : s.Quiet (s.feed bytes).1 := by
  induction bytes generalizing s with
  | nil => exact .refl s
  | cons b bs ih =>
    rw [State.feed]
    split
    · exact (s.consume_quiet b).trans (ih _)
    · exact .refl s

theorem State.receive_quiet (s : State) (frame : List Byte) : s.Quiet (s.receive frame) :=
  s.clearStrobes_quiet.trans ((State.feed_quiet frame _).trans (State.unread_quiet _ _))

/-- `Error` changes the error counter, the response's length and the phase alone (R177). -/
theorem State.errorPhase_lineStands (s : State) : s.LineStands s.errorPhase := .of_eq rfl rfl rfl

theorem State.idle_record (s : State) : s.idle.record = s.record := by
  unfold State.idle
  repeat' split
  all_goals rfl

theorem State.finishedPhase_record (s : State) : s.finishedPhase.record = s.record := by
  unfold State.finishedPhase State.txFlush
  repeat' split
  all_goals rfl

/-- The turnaround controller keeps the record (R300). -/
theorem State.taStep_record (s : State) : s.taStep.record = s.record := by
  unfold State.taStep
  split
  · rfl
  split
  · rfl
  · rfl
  · unfold State.taPre; split <;> rfl
  · unfold State.taTx; split <;> rfl
  · unfold State.taDrain; split <;> rfl
  · unfold State.taPost; split <;> rfl
  · rfl
  · unfold State.taTrail; split <;> rfl

/-- A tick resets the block, or keeps the record (R300, R353). -/
theorem State.tick_cases (s : State) :
    (s.sysResetReq = true ∧ s.par.tReset ≤ s.resetTicks + 1 ∧ s.tick = s.externalReset none) ∨
      s.tick.record = s.record := by
  unfold State.tick
  split
  · next hr =>
    split
    · next hle => exact .inl ⟨hr, hle, rfl⟩
    · exact .inr (State.taStep_record _)
  · exact .inr s.taStep_record

/-! ## How a dispatch ends -/

/-- `SETID` up to its acknowledgement: written through, read back (R228, R229). -/
def State.identityStored (s : State) : State := (s.nvmWrite s.par.idNvmAddr (0x80 ||| s.rxByte 0)).loadIdentity

/-- What follows in `SETID` is its acknowledgement. -/
theorem State.setidBody_quiet (s : State) : s.identityStored.Quiet s.setidBody := State.txAddBytes_quiet _ _

theorem State.identityStored_lineStands (s : State) : s.LineStands s.identityStored := .of_eq rfl rfl rfl

theorem State.configBody_lineStands (s : State) : s.LineStands s.configBody := .of_eq rfl rfl rfl

/-- An accepted `W` up to its answer: the page written, the cursor advanced (R352). -/
def State.pageProgrammed (s : State) : State :=
  { s.flashPageWrite s.cursor s.requestPage with cursor := s.advancedCursor }

theorem State.pageProgrammed_lineStands (s : State) : s.LineStands s.pageProgrammed := by
  apply State.LineStands.of_eq <;>
    simp [State.transmitter, State.line, State.pageProgrammed, State.flashPageWrite]

theorem State.pageProgrammed_record (s : State) :
    s.pageProgrammed.record = { s.record with
      flash := Memory.writeBytes (unlisted s.par .flash) s.flash s.cursor s.requestPage
      cursor := s.advancedCursor } := by
  simp only [State.record, State.pageProgrammed, State.flashPageWrite, State.storeBytes_par, State.storeBytes_variant,
    State.storeBytes_errCount, State.storeBytes_ownId, State.storeBytes_cfg]
  rfl

/-- What follows in an accepted `W` is its answer. -/
theorem State.programPage_quiet (s : State) : s.pageProgrammed.Quiet s.programPage := State.txAddBytes_quiet _ _

/-- The ends of a dispatch that has a next state: the record changes in three ways alone, by `SETID`, by `CONFIG` and by
an accepted `W`. The parameters say which of these the dispatch can be. -/
inductive DispatchLeaves (setid config write : Prop) (s t : State) : Prop
  /-- No store and no page write. -/
  | quiet (h : s.Quiet t)
  /-- The identity stored (R228, R229). -/
  | identity (hi : setid) (h : s.identityStored.Quiet t)
  /-- The configuration byte stored (R230, R231). -/
  | configuration (hc : config) (h : s.configBody.Quiet t)
  /-- A page programmed (R352). -/
  | page (hw : write) (hl : s.cursor < s.par.appLimit) (h : s.pageProgrammed.Quiet t)

theorem DispatchLeaves.imp {a b c a' b' c' : Prop} {s t : State} (h : DispatchLeaves a b c s t) (ha : a → a')
    (hb : b → b') (hc : c → c') : DispatchLeaves a' b' c' s t := by
  cases h with
  | quiet h => exact .quiet h
  | identity hi h => exact .identity (ha hi) h
  | configuration hi h => exact .configuration (hb hi) h
  | page hw hl h => exact .page (hc hw) hl h

theorem State.setVoltageBody_quiet (s : State) : s.Quiet s.setVoltageBody :=
  (((s.call_quiet _).trans (State.call_quiet _ _)).trans (State.call_quiet _ _)).txAddBytes _

theorem State.rawBody_quiet (s : State) : s.Quiet s.rawBody := by
  unfold State.rawBody
  split
  · exact ((s.call_quiet _).txAddBytes _).andThen (.of_eq rfl rfl rfl rfl)
  · exact .refl s

/-- How the dispatch of a runtime command ends (R181, R220). -/
theorem State.dispatchRuntime_leaves (s : State) {op : Byte} (h : isCommand op = true) :
    DispatchLeaves (op = opSetid) (op = opConfig) False s (s.dispatchRuntime op).endDispatch := by
  obtain ⟨hreqdata, hsetv0, hsetv1, hping, hsetlimit, hsetid, hconfig, hsensor, hraw⟩ := s.dispatchRuntime_eq
  simp only [isCommand, Bool.or_eq_true, beq_iff_eq] at h
  rcases h with (((((((rfl | rfl) | rfl) | rfl) | rfl) | rfl) | rfl) | rfl) | rfl
  · exact hreqdata ▸ .quiet (((s.call_quiet _).trans (State.call_quiet _ _)).txAddBytes _).endDispatch
  · exact hsetv0 ▸ .quiet s.setVoltageBody_quiet.endDispatch
  · exact hsetv1 ▸ .quiet s.setVoltageBody_quiet.endDispatch
  · exact hping ▸ .quiet (s.txAddBytes_quiet _).endDispatch
  · exact hsetlimit ▸ .quiet (s.call_quiet _).endDispatch
  · exact hsetid ▸ .identity rfl s.setidBody_quiet.endDispatch
  · exact hconfig ▸ .configuration rfl (State.endDispatch_quiet _)
  · exact hsensor ▸ .quiet ((s.call_quiet _).txAddBytes _).endDispatch
  · exact hraw ▸ .quiet s.rawBody_quiet.endDispatch

/-- How the dispatch of a boot request ends, where it has a next state (R345). -/
theorem State.dispatchBoot_leaves {s t : State} {c : Byte} (h : s.dispatchBoot c = .next t) :
    DispatchLeaves False False (c = cmdW) s t := by
  have hanswer (ok : Bool) : s.Quiet (s.answer ok).endDispatch := (s.txAddBytes_quiet _).endDispatch
  have hreset : s.Quiet s.bootRBody.endDispatch :=
    (Quiet.txAddBytes (s := s) (t := { s with resetPending := true }) (.of_eq rfl rfl rfl rfl) [statusY]).endDispatch
  unfold State.dispatchBoot at h
  split at h
  · exact Host.Outcome.next.inj h ▸ .quiet (hanswer true)
  split at h
  · exact Host.Outcome.next.inj h ▸ .quiet (hanswer _)
  split at h
  · next hw =>
    unfold State.bootWBody at h
    split at h
    · exact Host.Outcome.next.inj h ▸ .quiet (hanswer false)
    split at h
    · exact nomatch h
    next hl =>
    split at h
    · exact nomatch h
    · exact Host.Outcome.next.inj h ▸ .page hw (Nat.not_le.mp hl) s.programPage_quiet.endDispatch
  split at h
  · exact Host.Outcome.next.inj h ▸ .quiet hreset
  · exact Host.Outcome.next.inj h ▸ .quiet (hanswer false)

/-- The line stands over every dispatch: no instruction drives it (R312). -/
theorem DispatchLeaves.lineStands {a b c : Prop} {s t : State} (h : DispatchLeaves a b c s t) : s.LineStands t := by
  cases h with
  | quiet h => exact h.toLineStands
  | identity _ h => exact s.identityStored_lineStands.trans h.toLineStands
  | configuration _ h => exact s.configBody_lineStands.trans h.toLineStands
  | page _ _ h => exact s.pageProgrammed_lineStands.trans h.toLineStands

/-- No dispatch changes the parameters, the variant or the error counter. -/
theorem DispatchLeaves.constants {a b c : Prop} {s t : State} (h : DispatchLeaves a b c s t) :
    t.par = s.par ∧ t.variant = s.variant ∧ t.errCount = s.errCount := by
  have of_record {r : Record} (h : t.record = r) : t.par = r.par ∧ t.variant = r.variant ∧ t.errCount = r.errCount :=
    ⟨congrArg Record.par h, congrArg Record.variant h, congrArg Record.errCount h⟩
  cases h with
  | quiet h => exact of_record h.record
  | identity _ h => exact of_record h.record
  | configuration _ h => exact of_record h.record
  | page _ _ h => exact of_record (h.record.trans s.pageProgrammed_record)

/-- A dispatch of neither `SETID` nor `CONFIG` leaves every byte of the store, `SETID` and `CONFIG` every byte but their
own (R90). -/
theorem DispatchLeaves.load_nvm {a b c : Prop} {s t : State} (h : DispatchLeaves a b c s t) {n : Nat}
    (ha : a → n ≠ s.par.idNvmAddr) (hb : b → n ≠ s.par.idNvmAddr + 1) : t.load .nvm n = s.load .nvm n := by
  cases h with
  | quiet h => exact State.load_nvm_of_record h.record n
  | identity hi h =>
    exact (State.load_nvm_of_record h.record n).trans (State.load_store_other s _ (.inr (ha hi)))
  | configuration hc h =>
    exact (State.load_nvm_of_record h.record n).trans (State.load_store_other s _ (.inr (hb hc)))
  | page _ _ h =>
    have hr := h.record.trans s.pageProgrammed_record
    exact State.load_nvm_congr (congrArg Record.par hr) (congrArg Record.nvm hr) n

/-- A dispatch that is no `W` keeps the flash and the cursor (R359). -/
theorem DispatchLeaves.flash {a b c : Prop} {s t : State} (h : DispatchLeaves a b c s t) (hc : ¬c) :
    t.flash = s.flash ∧ t.cursor = s.cursor := by
  have of_record {r : Record} (h : t.record = r) : t.flash = r.flash ∧ t.cursor = r.cursor :=
    ⟨congrArg Record.flash h, congrArg Record.cursor h⟩
  cases h with
  | quiet h => exact of_record h.record
  | identity _ h => exact of_record h.record
  | configuration _ h => exact of_record h.record
  | page hw _ h => exact absurd hw hc

/-- Every dispatch keeps the flash outside the page at the cursor (R93, R95). -/
theorem DispatchLeaves.load_flash {a b c : Prop} {s t : State} (h : DispatchLeaves a b c s t) {n : Nat}
    (hn : n < s.cursor ∨ s.cursor + s.par.pageSize ≤ n) : t.load .flash n = s.load .flash n := by
  cases h with
  | quiet h => exact State.load_flash_of_record h.record n
  | identity _ h => exact State.load_flash_of_record h.record n
  | configuration _ h => exact State.load_flash_of_record h.record n
  | page _ _ h =>
    have hlen : s.requestPage.length = s.par.pageSize := by simp [State.requestPage, State.rxSlice]
    exact (State.load_flash_of_record h.record n).trans
      (State.load_storeBytes_outside s s.requestPage (.inr (hlen.symm ▸ hn)))

/-! ## How an instruction ends -/

/-- The ends of a frame, `D` saying how its dispatch can end: it waits, is eaten, dropped or halted, it is counted as an
error, or it is dispatched (R56, R177, R181). -/
inductive FrameLeaves (D : State → State → Prop) (s t : State) : Prop
  /-- Waiting, eaten, dropped or halted. -/
  | quiet (h : s.Quiet t)
  /-- Counted as an error. -/
  | counted (r : State) (h : s.Quiet r) (ht : t = r.errorPhase)
  /-- Dispatched. -/
  | dispatched (r : State) (h : s.Quiet r) (ht : D r t)

theorem runFrame_leaves {D : State → State → Prop} {frame : List Byte} {body : State → State} {s t : State}
    (hb : ∀ r : State, D r (body r).endDispatch) (h : runFrame frame body s = .next t) : FrameLeaves D s t := by
  have hreceive : s.Quiet (s.receive frame).clearStrobes := (s.receive_quiet frame).trans (State.clearStrobes_quiet _)
  rcases runFrame_cases h with ⟨-, rfl⟩ | ⟨-, rfl⟩ | ⟨-, -, -, rfl⟩ | ⟨-, -, -, rfl⟩
  · exact .quiet (s.unread_quiet frame)
  · exact .quiet (s.receive_quiet frame)
  · exact .counted _ hreceive rfl
  · exact .dispatched _ hreceive (hb _)

theorem runBootFrame_leaves {D : State → State → Prop} {frame : List Byte} {dispatch : State → Result} {s t : State}
    (hb : ∀ r u : State, dispatch r = .next u → D r u) (h : runBootFrame frame dispatch s = .next t) :
    FrameLeaves D s t := by
  have hreceive : s.Quiet (s.receive frame).clearStrobes := (s.receive_quiet frame).trans (State.clearStrobes_quiet _)
  rcases runBootFrame_cases h with ⟨-, ht⟩ | ⟨-, ht⟩ | ⟨-, -, -, ht⟩ | ⟨-, -, -, ht⟩
  · exact Host.Outcome.next.inj ht ▸ .quiet (s.unread_quiet frame)
  · exact Host.Outcome.next.inj ht ▸ .quiet (s.receive_quiet frame)
  · exact .counted _ hreceive (Host.Outcome.next.inj ht)
  · exact .dispatched _ hreceive (hb _ _ ht.symm)

section
variable {setid config write : Prop} {frame : List Byte} {s t : State}

/-- The frame of a runtime command. -/
theorem runFrame_command {body : State → State} (op : Byte) (hc : isCommand op = true)
    (hb : ∀ r : State, r.dispatchRuntime op = body r) (hsetid : op = opSetid → setid) (hconfig : op = opConfig → config)
    (h : runFrame frame body s = .next t) : FrameLeaves (DispatchLeaves setid config write) s t :=
  runFrame_leaves (fun r => hb r ▸ (r.dispatchRuntime_leaves hc).imp hsetid hconfig False.elim) h

/-- The frame of a boot request in the boot variant. -/
theorem runFrame_request {body : State → State} (c : Byte)
    (hb : ∀ r : State, r.dispatchBoot c = .next (body r).endDispatch) (hwrite : c = cmdW → write)
    (h : runFrame frame body s = .next t) : FrameLeaves (DispatchLeaves setid config write) s t :=
  runFrame_leaves (fun r => (State.dispatchBoot_leaves (hb r)).imp False.elim False.elim hwrite) h

/-- The frame of a response. -/
theorem runFrame_noEffect (h : runFrame frame State.noEffect s = .next t) :
    FrameLeaves (DispatchLeaves setid config write) s t :=
  runFrame_leaves (fun r => .quiet r.endDispatch_quiet) h

/-- The frame of a boot request that may be a `W`. -/
theorem runBootFrame_request {dispatch : State → Result} (hd : ∀ r : State, ∃ c, dispatch r = r.dispatchBoot c)
    (hwrite : write) (h : runBootFrame frame dispatch s = .next t) :
    FrameLeaves (DispatchLeaves setid config write) s t :=
  runBootFrame_leaves (fun r _ hu => (hd r).elim fun _ hc =>
    (State.dispatchBoot_leaves (hc.symm.trans hu)).imp False.elim False.elim fun _ => hwrite) h

end

/-- What each instruction can do to the record: `SETID` and `CONFIG` store, and in the boot variant `B.W`, or a `RAW`
with its bytes, programs a page. -/
theorem exec_leaves {s t : State} {i : Instr} (h : exec i s = .next t) :
    FrameLeaves (DispatchLeaves (∃ a v c, i = .setid a v c) (∃ a f c, i = .config a f c)
      (s.variant = .boot ∧ ((∃ a p c, i = .bW a p c) ∨ ∃ a cmd p c, i = .raw a cmd p c))) s t := by
  have hraw : ∀ r : State, r.dispatchRuntime opRaw = r.rawBody := fun r => r.dispatchRuntime_eq.2.2.2.2.2.2.2.2
  cases i with
  | reqdata a c => exact runFrame_command opReqdata rfl (fun r => r.dispatchRuntime_eq.1) nofun nofun h
  | setv0 a p c => exact runFrame_command opSetv0 rfl (fun r => r.dispatchRuntime_eq.2.1) nofun nofun h
  | setv1 a p c => exact runFrame_command opSetv1 rfl (fun r => r.dispatchRuntime_eq.2.2.1) nofun nofun h
  | ping a c => exact runFrame_command opPing rfl (fun r => r.dispatchRuntime_eq.2.2.2.1) nofun nofun h
  | setlimit a v c => exact runFrame_command opSetlimit rfl (fun r => r.dispatchRuntime_eq.2.2.2.2.1) nofun nofun h
  | setid a v c =>
    exact runFrame_command opSetid rfl (fun r => r.dispatchRuntime_eq.2.2.2.2.2.1) (fun _ => ⟨a, v, c, rfl⟩) nofun h
  | config a f c =>
    exact runFrame_command opConfig rfl (fun r => r.dispatchRuntime_eq.2.2.2.2.2.2.1) nofun (fun _ => ⟨a, f, c, rfl⟩) h
  | sensor a v c =>
    exact runFrame_command opSensor rfl (fun r => r.dispatchRuntime_eq.2.2.2.2.2.2.2.1) nofun nofun h
  | raw a cmd p c =>
    simp only [exec, execRaw] at h
    split at h
    · exact runFrame_command opRaw rfl hraw nofun nofun h
    · next hv => exact runBootFrame_request (fun r => ⟨_, rfl⟩) ⟨hv, .inr ⟨a, cmd, p, c, rfl⟩⟩ h
  | bS a p c =>
    simp only [exec, execBS] at h
    split at h
    · exact runFrame_command opRaw rfl hraw nofun nofun h
    · exact runFrame_request cmdS (fun r => r.dispatchBoot_eq.1) nofun h
  | bI a p c =>
    simp only [exec, execBI] at h
    split at h
    · exact runFrame_command opRaw rfl hraw nofun nofun h
    · exact runFrame_request cmdI (fun r => r.dispatchBoot_eq.2.1) nofun h
  | bW a p c =>
    simp only [exec, execBW] at h
    split at h
    · exact runFrame_command opRaw rfl hraw nofun nofun h
    · next hv => exact runBootFrame_request (fun r => ⟨cmdW, r.dispatchBoot_eq.2.2.1.symm⟩) ⟨hv, .inl ⟨a, p, c, rfl⟩⟩ h
  | bR a p c =>
    simp only [exec, execBR] at h
    split at h
    · exact runFrame_command opRaw rfl hraw nofun nofun h
    · exact runFrame_request cmdR (fun r => r.dispatchBoot_eq.2.2.2) nofun h
  | pingR a c => exact runFrame_noEffect h
  | setidR a c => exact runFrame_noEffect h
  | dataR a w0 w1 w2 w3 w4 c => exact runFrame_noEffect h
  | sensorR a x y z c => exact runFrame_noEffect h
  | rawR a c => exact runFrame_noEffect h
  | bY c => exact runFrame_noEffect h
  | bN c => exact runFrame_noEffect h

/-! ## What an instruction leaves unchanged -/

/-- Settles O8: of the ends of a frame, waiting alone is for a receiver that is not ready. -/
theorem frameWaitsForBusyReceiver : Obligations.FrameWaitsForBusyReceiver := by
  intro s i hs
  have hready : ¬s.ready = true := by simp [hs]
  rcases exec_ends (s := s) (i := i) rfl with ⟨-, hwait⟩ | ⟨hr, -⟩ | ⟨hr, -⟩ | ⟨hr, -⟩
  · exact hwait
  all_goals exact absurd hr hready

/-- The line stands over every instruction, and a halt is not cleared (R312, R394). -/
theorem exec_lineStands {s t : State} {i : Instr} (h : exec i s = .next t) : s.LineStands t := by
  cases exec_leaves h with
  | quiet h => exact h.toLineStands
  | counted r h ht => exact ht ▸ h.toLineStands.trans r.errorPhase_lineStands
  | dispatched r h ht => exact h.toLineStands.trans ht.lineStands

/-- No instruction changes the parameters or the variant. -/
theorem exec_par_variant {s t : State} {i : Instr} (h : exec i s = .next t) :
    t.par = s.par ∧ t.variant = s.variant := by
  have of_quiet {r : State} (h : s.Quiet r) : r.par = s.par ∧ r.variant = s.variant :=
    ⟨congrArg Record.par h.record, congrArg Record.variant h.record⟩
  cases exec_leaves h with
  | quiet h => exact of_quiet h
  | counted r h ht => exact ht ▸ of_quiet (r := r) h
  | dispatched r h ht =>
    obtain ⟨hpar, hvariant, -⟩ := ht.constants
    exact ⟨hpar.trans (of_quiet h).1, hvariant.trans (of_quiet h).2⟩

/-- Settles O37: a dispatch stores to the byte of its own command alone, and nothing else of a frame stores. -/
theorem instructionsKeepTheStore : Obligations.InstructionsKeepTheStore := by
  intro s t i h
  obtain ⟨hpar, hvariant⟩ := exec_par_variant h
  refine ⟨hpar, hvariant, fun hf => ?_, fun n hid hcfg => ?_⟩
  · cases ht : t.fatal with
    | true => rfl
    | false => exact ((exec_lineStands h).running ht).1.symm.trans hf
  · cases exec_leaves h with
    | quiet h => exact State.load_nvm_of_record h.record n
    | counted r h ht => exact ht ▸ State.load_nvm_of_record h.record n
    | dispatched r h ht =>
      have hr : r.par = s.par := congrArg Record.par h.record
      refine (ht.load_nvm ?_ ?_).trans (State.load_nvm_of_record h.record n)
      · rintro ⟨a, v, c, hi⟩ hn
        exact hid (hr ▸ hn) a v c hi
      · rintro ⟨a, f, c, hi⟩ hn
        exact hcfg (hr ▸ hn) a f c hi

/-- An instruction that cannot be a `W` keeps the flash and the cursor. -/
theorem exec_keepsFlash {s t : State} {i : Instr} (h : exec i s = .next t)
    (hw : ¬(s.variant = .boot ∧ ((∃ a p c, i = .bW a p c) ∨ ∃ a cmd p c, i = .raw a cmd p c))) :
    t.flash = s.flash ∧ t.cursor = s.cursor := by
  have of_quiet {r : State} (h : s.Quiet r) : r.flash = s.flash ∧ r.cursor = s.cursor :=
    ⟨congrArg Record.flash h.record, congrArg Record.cursor h.record⟩
  cases exec_leaves h with
  | quiet h => exact of_quiet h
  | counted r h ht => exact ht ▸ of_quiet (r := r) h
  | dispatched r h ht =>
    obtain ⟨hflash, hcursor⟩ := ht.flash hw
    exact ⟨hflash.trans (of_quiet h).1, hcursor.trans (of_quiet h).2⟩

/-- Settles O38: of the dispatches an accepted `W` alone writes the flash, its bytes at the cursor. -/
theorem instructionsKeepTheFlash : Obligations.InstructionsKeepTheFlash := by
  intro s t i h
  refine ⟨fun hv => exec_keepsFlash h ?_, fun hW hraw => exec_keepsFlash h ?_, fun n hn => ?_⟩
  · rintro ⟨hboot, -⟩
    exact nomatch hv.symm.trans hboot
  · rintro ⟨-, ⟨a, p, c, hi⟩ | ⟨a, cmd, p, c, hi⟩⟩
    · exact hW a p c hi
    · exact hraw a cmd p c hi
  · cases exec_leaves h with
    | quiet h => exact State.load_flash_of_record h.record n
    | counted r h ht => exact ht ▸ State.load_flash_of_record h.record n
    | dispatched r h ht =>
      have hpar : r.par = s.par := congrArg Record.par h.record
      have hcursor : r.cursor = s.cursor := congrArg Record.cursor h.record
      exact (ht.load_flash (by rw [hpar, hcursor]; exact hn)).trans (State.load_flash_of_record h.record n)

/-- Settles O39: the line stands, and a frame for a block that has halted waits. -/
theorem instructionsKeepTheLine : Obligations.InstructionsKeepTheLine := by
  intro s t i h hfatal
  have hstands := exec_lineStands h
  have hline : t.line = s.line := by
    cases ht : t.fatal with
    | false => exact (hstands.running ht).2
    | true =>
      have hbusy : s.ready = false := by simp [State.ready, hfatal.symm.trans ht]
      have hwait := Host.Outcome.next.inj ((frameWaitsForBusyReceiver s i hbusy).symm.trans h)
      exact hwait ▸ rfl
  have htransmitter := hstands.transmitter
  simp only [State.line, State.transmitter, Prod.mk.injEq] at hline htransmitter
  obtain ⟨hta, hde, hre⟩ := hline
  obtain ⟨htimer, hidx, hchk, hdata, hstopped, hhandoff, hreset⟩ := htransmitter
  exact ⟨hta, htimer, hidx, hde, hre, hchk, hdata, hstopped, hhandoff, hreset⟩

/-! ## Reset -/

/-- The flash that a reset leaves: where it cuts into a page write, with the page that the event gives (R434, R435;
log 19). -/
def State.flashAfterReset (s : State) (torn : Option (List Byte)) : Memory :=
  match torn with
  | none => s.flash
  | some page =>
    if s.pageWriteDue then
      Memory.writeBytes (unlisted s.par .flash) s.flash s.cursor (page.take s.par.pageSize)
    else s.flash

/-- A reset, torn page write or not, is the reset sequence over the store and the flash that it leaves (R430, R434). -/
theorem State.externalReset_eq (s : State) (torn : Option (List Byte)) :
    s.externalReset torn = State.afterReset s.par s.nvm (s.flashAfterReset torn) s.ports s.inputs s.clock := by
  cases torn with
  | none => rfl
  | some page =>
    simp only [State.externalReset, State.flashAfterReset]
    split <;> rfl

theorem State.flashAfterReset_whole (s : State) {torn : Option (List Byte)}
    (h : torn = none ∨ s.pageWriteDue = false) : s.flashAfterReset torn = s.flash := by
  rcases h with rfl | h
  · rfl
  · cases torn with
    | none => rfl
    | some page => simp [State.flashAfterReset, h]

/-- A reset that cuts into a page write keeps the bytes outside the page. -/
theorem State.flashAfterReset_outside (s : State) (torn : Option (List Byte)) {n : Nat}
    (hn : n < s.cursor ∨ s.cursor + s.par.pageSize ≤ n) :
    Memory.read (unlisted s.par .flash) (s.flashAfterReset torn) n = s.load .flash n := by
  cases torn with
  | none => rfl
  | some page =>
    simp only [State.flashAfterReset]
    split
    · exact Memory.read_writeBytes_outside _ _ (by simp only [List.length_take]; omega)
    · rfl

/-- A reset that cuts into a page write leaves the event's bytes in the page. -/
theorem State.flashAfterReset_inside (s : State) (page : List Byte) (hdue : s.pageWriteDue = true) {n : Nat}
    (h : n < page.length) (hn : n < s.par.pageSize) :
    Memory.read (unlisted s.par .flash) (s.flashAfterReset (some page)) (s.cursor + n) = some page[n] := by
  simp only [State.flashAfterReset, hdue, if_true]
  rw [Memory.read_writeBytes_of_none (u := unlisted s.par .flash) (fun _ => rfl) _ _ _
    (by simp only [List.length_take]; omega), List.getElem_take]

/-- Settles O51: the registers are those of the reset sequence, the flash is `flashAfterReset`. -/
theorem resetLoadsAndClears : Obligations.ResetLoadsAndClears := by
  intro s p more torn hi
  have hstep := step_of_inputs hi
  simp only [State.onEvent, State.externalReset_eq] at hstep
  refine ⟨_, hstep, rfl, rfl, rfl, rfl, rfl, rfl, rfl, rfl, rfl, rfl, rfl, rfl, rfl, rfl, rfl, rfl, rfl, rfl, rfl, rfl,
    rfl, rfl, rfl, rfl, rfl, rfl, rfl, rfl, rfl, rfl, rfl, rfl, rfl, rfl, rfl, rfl, rfl, ?_, ?_, ?_⟩
  · exact State.flashAfterReset_whole _
  · exact fun n hn => State.flashAfterReset_outside
      { s.clearStrobes with ports := p, inputs := more, clock := s.clock + 1 } torn hn
  · rintro page rfl hdue - n h hn
    exact State.flashAfterReset_inside _ page hdue h hn

/-! ## What every step keeps -/

/-- A property of the record alone that the changes of the record keep: the two stores, the page write, the error count
and reset. -/
structure RecordInvariant (P : State → Prop) : Prop where
  /-- It is a property of the record. -/
  record : ∀ s t : State, t.record = s.record → P s → P t
  /-- `SETID` keeps it. -/
  identity : ∀ s : State, P s → P s.identityStored
  /-- `CONFIG` keeps it. -/
  configuration : ∀ s : State, P s → P s.configBody
  /-- An accepted `W` keeps it. -/
  page : ∀ s : State, P s → s.cursor < s.par.appLimit → P s.pageProgrammed
  /-- `Error` keeps it. -/
  error : ∀ s : State, P s → P s.errorPhase
  /-- Reset keeps it. -/
  reset : ∀ (s : State) (torn : Option (List Byte)), P s → P (s.externalReset torn)

section
variable {P : State → Prop}

theorem RecordInvariant.quiet (k : RecordInvariant P) {s t : State} (h : P s) (hq : s.Quiet t) : P t :=
  k.record s t hq.record h

theorem RecordInvariant.dispatch (k : RecordInvariant P) {a b c : Prop} {s t : State} (h : P s)
    (hd : DispatchLeaves a b c s t) : P t := by
  cases hd with
  | quiet hq => exact k.quiet h hq
  | identity _ hq => exact k.quiet (k.identity s h) hq
  | configuration _ hq => exact k.quiet (k.configuration s h) hq
  | page _ hl hq => exact k.quiet (k.page s h hl) hq

/-- Every rule keeps a record invariant. -/
theorem RecordInvariant.keeps (k : RecordInvariant P) : Keeps P where
  frame s _ _ _ _ _ _ _ h := k.record s _ rfl h
  byte s b h _ _ := k.record s _ (State.byteRule_quiet { s with wdt := 0 } b).record h
  error s h _ _ := k.error s h
  idle s h _ _ := k.record s _ s.idle_record h
  finished s h _ _ := k.record s _ s.finishedPhase_record h
  illegal s _ h _ _ := k.quiet h (s.raiseFatal_quiet _)
  command s _ h _ _ hc := k.dispatch h (s.dispatchRuntime_leaves hc)
  request _ _ _ h _ _ ht := k.dispatch h (State.dispatchBoot_leaves ht)
  unknown s h _ _ _ := k.quiet h (s.raiseFatal_quiet _).endDispatch
  tick s h := by
    rcases s.tick_cases with ⟨-, -, ht⟩ | ht
    · exact ht ▸ k.reset s none h
    · exact k.record s _ ht h
  reset := k.reset

end

/-- The identity is fresh by the store's bytes and their registers. -/
theorem State.identityFresh_congr {s t : State} (hpar : t.par = s.par) (hnvm : t.nvm = s.nvm) (hid : t.ownId = s.ownId)
    (hcfg : t.cfg = s.cfg) (hf : s.identityFresh) : t.identityFresh := by
  simp only [State.identityFresh, State.nvmIdentity, State.nvmConfig, State.load_nvm_congr hpar hnvm, hpar, hid, hcfg]
  exact hf

/-- A write of the configuration byte leaves the identity that the store reads as. -/
theorem State.nvmIdentity_nvmWrite_config (s : State) (v : Byte) :
    (s.nvmWrite (s.par.idNvmAddr + 1) v).nvmIdentity = s.nvmIdentity :=
  congrArg (·.getD s.par.nvmInitId) (State.load_store_other s _ (.inr (Nat.succ_ne_self _).symm))

/-- A write of the identity byte leaves the configuration that the store reads as. -/
theorem State.nvmConfig_nvmWrite_identity (s : State) (v : Byte) :
    (s.nvmWrite s.par.idNvmAddr v).nvmConfig = s.nvmConfig :=
  congrArg (·.getD s.par.nvmInitCfg) (State.load_store_other s _ (.inr (Nat.succ_ne_self _)))

/-- Each store is followed by the re-read of its own byte, and leaves the other's byte and register (R229, R231). -/
theorem identityFresh_recordInvariant : RecordInvariant State.identityFresh where
  record _ _ h := State.identityFresh_congr (congrArg Record.par h) (congrArg Record.nvm h) (congrArg Record.ownId h)
    (congrArg Record.cfg h)
  identity s hf := ⟨rfl, hf.2.trans (s.nvmConfig_nvmWrite_identity _).symm⟩
  configuration s hf := ⟨hf.1.trans (congrArg (identityOf s.par) (s.nvmIdentity_nvmWrite_config _).symm), rfl⟩
  page s hf _ :=
    have h := s.pageProgrammed_record
    State.identityFresh_congr (congrArg Record.par h) (congrArg Record.nvm h) (congrArg Record.ownId h)
      (congrArg Record.cfg h) hf
  error _ hf := hf
  reset s torn _ := by
    rw [State.externalReset_eq]
    exact ⟨rfl, rfl⟩

/-- Settles O55: whatever the store keeps, the registers hold what is read back. -/
theorem stepKeepsIdentityFresh : Obligations.StepKeepsIdentityFresh :=
  fun _ _ _ hf hstep => identityFresh_recordInvariant.keeps.step hf hstep

/-- The cursor stands on a page boundary of an application area of whole pages. -/
def State.cursorInArea (s : State) : Prop := s.par.appLimit % s.par.pageSize = 0 ∧ s.cursorAligned

/-- The cursor moves by an accepted `W` alone, below the limit and by one page, and reset puts it on the first page. -/
theorem cursorInArea_recordInvariant : RecordInvariant State.cursorInArea where
  record s t h hc := by
    have hpar : t.par = s.par := congrArg Record.par h
    have hcursor : t.cursor = s.cursor := congrArg Record.cursor h
    simpa only [State.cursorInArea, State.cursorAligned, hpar, hcursor] using hc
  identity _ hc := hc
  configuration _ hc := hc
  page s hc hl := by
    have hr := s.pageProgrammed_record
    have hpar : s.pageProgrammed.par = s.par := congrArg Record.par hr
    have hcursor : s.pageProgrammed.cursor = s.advancedCursor := congrArg Record.cursor hr
    obtain ⟨harea, haligned, -⟩ := hc
    simp only [State.cursorInArea, State.cursorAligned, hpar, hcursor]
    exact ⟨harea, s.advancedCursor_aligned harea haligned hl⟩
  error _ hc := hc
  reset s torn hc := by
    rw [State.externalReset_eq]
    exact ⟨hc.1, State.afterReset_cursorAligned ..⟩

/-- Settles O58: the area of whole pages is part of the invariant, for the last page to end at its end. -/
theorem stepKeepsCursorAligned : Obligations.StepKeepsCursorAligned :=
  fun _ _ harea hc hstep => (cursorInArea_recordInvariant.keeps.step ⟨harea, hc⟩ hstep).2

/-! ## The error counter -/

/-- From `s` to `t` no error is counted, or one is (R43, R177). -/
def State.CountsUpToOne (s t : State) : Prop :=
  s.errCount.toNat ≤ t.errCount.toNat ∧ t.errCount.toNat ≤ s.errCount.toNat + 1

theorem State.CountsUpToOne.of_eq {s t : State} (h : t.errCount = s.errCount) : s.CountsUpToOne t := by
  rw [State.CountsUpToOne, h]
  exact ⟨Nat.le_refl _, Nat.le_succ _⟩

theorem State.CountsUpToOne.of_record {s t : State} (h : t.record = s.record) : s.CountsUpToOne t :=
  .of_eq (congrArg Record.errCount h)

/-- `Error` counts one, saturating at 255 (R177). -/
theorem State.errorPhase_counts (s : State) : s.CountsUpToOne s.errorPhase := by
  have herr : s.errorPhase.errCount = if s.errCount = 255 then s.errCount else s.errCount + 1 := rfl
  unfold State.CountsUpToOne
  rw [herr]
  split
  · exact ⟨Nat.le_refl _, Nat.le_succ _⟩
  · next hne =>
    have hlt : s.errCount.toNat + 1 < 256 := by bv_omega
    rw [BitVec.toNat_add_of_lt hlt]
    exact ⟨Nat.le_succ _, Nat.le_refl _⟩

/-- A frame counts at most one error. -/
theorem exec_counts {s t : State} {i : Instr} (h : exec i s = .next t) : s.CountsUpToOne t := by
  cases exec_leaves h with
  | quiet h => exact .of_record h.record
  | counted r h ht =>
    have herr : r.errCount = s.errCount := congrArg Record.errCount h.record
    have hcounts := r.errorPhase_counts
    rw [State.CountsUpToOne, herr] at hcounts
    exact ht ▸ hcounts
  | dispatched r h ht => exact .of_eq (ht.constants.2.2.trans (congrArg Record.errCount h.record))

/-- The arbiter counts no error (R181). -/
theorem State.pendingPhase_errCount {s t : State} (h : s.pendingPhase = .next t) : t.errCount = s.errCount := by
  unfold State.pendingPhase at h
  split at h
  · obtain rfl := Host.Outcome.next.inj h
    cases hc : isCommand s.opcode with
    | true => exact (s.dispatchRuntime_leaves hc).constants.2.2
    | false =>
      rw [State.dispatchRuntime_unknown s hc]
      exact congrArg Record.errCount (s.raiseFatal_quiet .unknownOpcode).endDispatch.record
  · split at h
    · exact (State.dispatchBoot_leaves h).constants.2.2
    · obtain rfl := Host.Outcome.next.inj h
      exact congrArg Record.errCount (s.raiseFatal_quiet .unknownOpcode).endDispatch.record

/-- A step of a phase that consumes a byte keeps the record (R160). -/
theorem State.bytePhase_record {s t : State} (h : s.bytePhase = .next t) : t.record = s.record := by
  unfold State.bytePhase at h
  split at h
  · exact Host.Outcome.next.inj h ▸ s.idle_record
  · split at h
    · exact nomatch h
    · exact Host.Outcome.next.inj h ▸ (State.consume_quiet _ _).record

/-- A service step counts an error in `Error` alone. -/
theorem State.serviceStep_counts {s t : State} (h : s.serviceStep = .next t) : s.CountsUpToOne t := by
  unfold State.serviceStep at h
  split at h
  · exact Host.Outcome.next.inj h ▸ .of_eq rfl
  split at h
  iterate 6 exact .of_record (State.bytePhase_record h)
  · exact .of_eq (State.pendingPhase_errCount h)
  · exact Host.Outcome.next.inj h ▸ .of_record s.finishedPhase_record
  · exact Host.Outcome.next.inj h ▸ s.errorPhase_counts
  · exact Host.Outcome.next.inj h ▸ .of_record (s.raiseFatal_quiet _).record

theorem State.burst_counts {s t : State} (h : s.burst = .next t) : s.CountsUpToOne t := by
  unfold State.burst at h
  split at h
  · next rest _ => exact exec_counts (s := { s with rxq := rest }) h
  · exact State.serviceStep_counts h

theorem State.deliver_record (s : State) (b : Byte) : (s.deliver b).record = s.record := by
  unfold State.deliver
  split <;> rfl

/-- Settles O60: without a reset each event's step counts at most one error, and its beginning none. -/
theorem errorCountNeverFalls : Obligations.ErrorCountNeverFalls := by
  intro s t p more e hi hreset htick hstep
  rw [step_of_inputs hi] at hstep
  suffices h : State.CountsUpToOne { s.clearStrobes with ports := p, inputs := more, clock := s.clock + 1 } t from h
  cases e with
  | svc => exact State.serviceStep_counts hstep
  | burst => exact State.burst_counts hstep
  | bus b => exact Host.Outcome.next.inj hstep ▸ .of_record (State.deliver_record _ b)
  | reset torn => exact absurd rfl (hreset torn)
  | tb =>
    obtain rfl := Host.Outcome.next.inj hstep
    rcases State.tick_cases { s.clearStrobes with ports := p, inputs := more, clock := s.clock + 1 } with
      ⟨hreq, hle, -⟩ | hrecord
    · exact absurd (htick rfl hreq) (Nat.not_lt.mpr hle)
    · exact .of_record hrecord

end Sys2Proof.Machine

/-! # The statements of 20_memory.md: the memories, the page write, the response on the line -/

namespace Sys2Proof.Machine

/-! ## What the rules leave unchanged -/

/-- The two buffers, with the parameters that say what their unlisted bytes read as (R81, R84). -/
def State.buffers (s : State) : Params × Memory × Memory := (s.par, s.rxbuf, s.txbuf)

/-- A byte rule leaves `RXBUF` as it is, or stores the byte at the index counted (R171). -/
theorem State.byteRule_rxbuf (s : State) (b : Byte) :
    (s.byteRule b).rxbuf = s.rxbuf ∨ (s.byteRule b).rxbuf = (s.store .rxbuf s.count.toNat b).rxbuf := by
  unfold State.byteRule
  split
  · unfold State.rxSyncing
    repeat' split
    all_goals exact .inl rfl
  · unfold State.rxAwaiting
    split <;> exact .inl rfl
  · unfold State.rxGetAddress
    repeat' split
    all_goals exact .inl rfl
  · unfold State.rxReading State.rxPayloadEnd
    simp only
    repeat' split
    all_goals exact .inr rfl
  · unfold State.rxEating
    repeat' split
    all_goals exact .inl rfl
  · unfold State.rxVerifying
    simp only
    repeat' split
    all_goals exact .inl rfl
  all_goals exact .inl rfl

/-- A byte rule leaves `TXBUF` as it is. -/
theorem State.byteRule_txbuf (s : State) (b : Byte) : (s.byteRule b).txbuf = s.txbuf := by
  obtain ⟨_, _, _, _, _, _, _, _, _, _, _, _, _, _, _, _, he, -⟩ := s.byteRule_frame b
  rw [he]

/-- A step that finds no byte changes the watchdog, and raises at most its error (R179, R180). -/
theorem State.idle_frame (s : State) :
    ∃ w c p, s.idle = { s with wdt := w, lastCause := c, phase := p } ∧
      (p = s.phase ∨ s.phase ≠ .syncing ∧ p = .error) := by
  unfold State.idle
  split
  · exact ⟨s.wdt, s.lastCause, s.phase, rfl, .inl rfl⟩
  · next hp =>
    split
    · exact ⟨_, _, _, rfl, .inr ⟨hp, rfl⟩⟩
    · exact ⟨_, _, _, rfl, .inl rfl⟩

theorem State.finishedPhase_buffers (s : State) : s.finishedPhase.buffers = s.buffers := by
  unfold State.finishedPhase State.txFlush
  repeat' split
  all_goals rfl

/-- A turnaround step changes the turnaround's registers and outputs alone, and the response's length at most to that of
an empty response (R300, R308). -/
theorem State.taStep_frame (s : State) :
    ∃ ta timer idx d r len data w,
      s.taStep = { s with
        taState := ta
        taTimer := timer
        taIdx := idx
        de := d
        re := r
        txLen := len
        txData := data
        txWrite := w } ∧ (len = s.txLen ∨ len = 2) := by
  unfold State.taStep
  split
  · exact ⟨_, _, _, _, _, _, _, _, rfl, .inl rfl⟩
  split
  · exact ⟨_, _, _, _, _, _, _, _, rfl, .inl rfl⟩
  · exact ⟨_, _, _, _, _, _, _, _, rfl, .inl rfl⟩
  · unfold State.taPre
    split <;> exact ⟨_, _, _, _, _, _, _, _, rfl, .inl rfl⟩
  · unfold State.taTx
    split
    · exact ⟨_, _, _, _, _, _, _, _, rfl, .inl rfl⟩
    · exact ⟨_, _, _, _, _, _, _, _, rfl, .inl rfl⟩
  · unfold State.taDrain
    split
    · exact ⟨_, _, _, _, _, _, _, _, rfl, .inl rfl⟩
    · exact ⟨_, _, _, _, _, _, _, _, rfl, .inl rfl⟩
  · unfold State.taPost
    split <;> exact ⟨_, _, _, _, _, _, _, _, rfl, .inl rfl⟩
  · exact ⟨_, _, _, _, _, _, _, _, rfl, .inl rfl⟩
  · unfold State.taTrail
    split
    · exact ⟨_, _, _, _, _, _, _, _, rfl, .inr rfl⟩
    · exact ⟨_, _, _, _, _, _, _, _, rfl, .inl rfl⟩

/-! ## How a dispatch responds -/

/-- What a dispatch leaves as it is but for its response: the parameters, the halts, the sync flag, the response and the
payload. -/
def State.responder (s : State) : Params × Bool × Bool × Bool × BitVec 9 × Memory × Memory :=
  (s.par, s.fatal, s.halfSynced, s.stopped, s.txLen, s.rxbuf, s.txbuf)

/-- From `s` to `t` a dispatch does other things than respond: strobes, the store, the page write, a deferred transfer
(R220, R345). -/
structure State.Prepares (s t : State) : Prop where
  /-- The response is as before. -/
  kept : t.responder = s.responder
  /-- The timer interrupts are not left masked (R95). -/
  unmasked : s.timerIrqMask = false → t.timerIrqMask = false

theorem State.Prepares.refl (s : State) : s.Prepares s := ⟨rfl, id⟩

theorem State.Prepares.trans {s t u : State} (h : s.Prepares t) (h' : t.Prepares u) : s.Prepares u where
  kept := h'.kept.trans h.kept
  unmasked hm := h'.unmasked (h.unmasked hm)

theorem State.call_prepares (s : State) (c : Call) : s.Prepares (s.call c) := ⟨rfl, id⟩

theorem State.identityStored_prepares (s : State) : s.Prepares s.identityStored := ⟨rfl, id⟩

theorem State.configBody_prepares (s : State) : s.Prepares s.configBody := ⟨rfl, id⟩

theorem State.pageProgrammed_prepares (s : State) : s.Prepares s.pageProgrammed where
  kept := by
    simp only [State.responder, State.pageProgrammed, State.flashPageWrite, State.storeBytes_par,
      State.storeBytes_fatal, State.storeBytes_halfSynced, State.storeBytes_stopped, State.storeBytes_txLen]
    rfl
  unmasked _ := rfl

/-- A dispatch from `s` that has a next state: it queues at most the bytes of the longest response (R238), and does
other things before and after. -/
inductive State.Responds (s : State) : State → Prop
  /-- The response `bytes`. -/
  | intro {r t : State} (bytes : List Byte) (hbefore : s.Prepares r) (hlen : bytes.length ≤ 12)
    (hafter : (r.txAddBytes bytes).Prepares t) : s.Responds t.endDispatch

/-- A response that ends its dispatch. -/
theorem State.Prepares.responds {s r : State} (h : s.Prepares r) (bytes : List Byte) (hlen : bytes.length ≤ 12) :
    s.Responds (r.txAddBytes bytes).endDispatch := .intro bytes h hlen (.refl _)

/-- `RAW` in the runtime variant responds as the handshake, which sets the transfer pending after, or is silent (R235,
R236). -/
theorem State.rawBody_responds (s : State) : s.Responds s.rawBody.endDispatch := by
  unfold State.rawBody
  split
  · refine .intro [opRawR, s.ownByte] (s.call_prepares .motorDisable) (Nat.le_add_left 2 10) ?_
    unfold State.handshakeBody State.andThen
    split
    · exact .refl _
    · exact ⟨rfl, id⟩
  · exact (State.Prepares.refl s).responds [] (Nat.zero_le _)

/-- The dispatch of a runtime command responds (R220). -/
theorem State.dispatchRuntime_responds (s : State) {op : Byte} (h : isCommand op = true) :
    s.Responds (s.dispatchRuntime op).endDispatch := by
  obtain ⟨hreqdata, hsetv0, hsetv1, hping, hsetlimit, hsetid, hconfig, hsensor, hraw⟩ := s.dispatchRuntime_eq
  have hvolts : s.Responds s.setVoltageBody.endDispatch :=
    (((s.call_prepares _).trans (State.call_prepares _ _)).trans (State.call_prepares _ _)).responds _ (Nat.le_refl 12)
  have hsilent {r : State} (hr : s.Prepares r) : s.Responds r.endDispatch := hr.responds [] (Nat.zero_le _)
  simp only [isCommand, Bool.or_eq_true, beq_iff_eq] at h
  rcases h with (((((((rfl | rfl) | rfl) | rfl) | rfl) | rfl) | rfl) | rfl) | rfl
  · exact hreqdata ▸ ((s.call_prepares _).trans (State.call_prepares _ _)).responds _ (Nat.le_refl 12)
  · exact hsetv0 ▸ hvolts
  · exact hsetv1 ▸ hvolts
  · exact hping ▸ (State.Prepares.refl s).responds [opPingR, s.ownByte] (Nat.le_add_left 2 10)
  · exact hsetlimit ▸ hsilent (s.call_prepares _)
  · exact hsetid ▸ s.identityStored_prepares.responds [opSetidR, s.identityStored.ownByte] (Nat.le_add_left 2 10)
  · exact hconfig ▸ hsilent s.configBody_prepares
  · exact hsensor ▸ (s.call_prepares _).responds _ (Nat.le_add_left 8 4)
  · exact hraw ▸ s.rawBody_responds

/-- The dispatch of a boot request responds, where it has a next state (R345). -/
theorem State.dispatchBoot_responds {s t : State} {c : Byte} (h : s.dispatchBoot c = .next t) : s.Responds t := by
  have hone {r : State} (b : Byte) (hr : s.Prepares r) : s.Responds (r.txAddBytes [b]).endDispatch :=
    hr.responds [b] (Nat.le_add_left 1 11)
  rcases s.dispatchBoot_ends c with ⟨ok, hd⟩ | hd | ⟨-, -, -, hd⟩ | ⟨-, hd⟩ | ⟨-, -, hd⟩
  · exact Host.Outcome.next.inj (hd.symm.trans h) ▸ hone _ (.refl s)
  · exact Host.Outcome.next.inj (hd.symm.trans h) ▸ hone statusY (r := { s with resetPending := true }) ⟨rfl, id⟩
  · exact Host.Outcome.next.inj (hd.symm.trans h) ▸ hone statusY s.pageProgrammed_prepares
  · exact nomatch hd.symm.trans h
  · exact nomatch hd.symm.trans h

/-! ## The canonical form of the memories -/

/-- The buffers are in canonical form. -/
def State.buffersWf (s : State) : Prop :=
  Memory.wf (unlisted s.par .rxbuf) s.rxbuf ∧ Memory.wf (unlisted s.par .txbuf) s.txbuf

/-- The store and the flash are in canonical form. -/
def State.storesWf (s : State) : Prop :=
  Memory.wf (unlisted s.par .nvm) s.nvm ∧ Memory.wf (unlisted s.par .flash) s.flash

theorem State.memoriesWf_iff (s : State) : s.memoriesWf ↔ s.buffersWf ∧ s.storesWf := and_assoc.symm

theorem State.buffersWf.congr {s t : State} (h : s.buffersWf) (ht : t.buffers = s.buffers) : t.buffersWf := by
  simp only [State.buffers, Prod.mk.injEq] at ht
  obtain ⟨hpar, hrx, htx⟩ := ht
  simpa only [State.buffersWf, hpar, hrx, htx] using h

theorem State.Prepares.buffers {s t : State} (h : s.Prepares t) : t.buffers = s.buffers := by
  have hk := h.kept
  simp only [State.responder, Prod.mk.injEq] at hk
  obtain ⟨hpar, -, -, -, -, hrx, htx⟩ := hk
  simp only [State.buffers, hpar, hrx, htx]

theorem State.endDispatch_buffers (s : State) : s.endDispatch.buffers = s.buffers := by
  unfold State.endDispatch
  split <;> rfl

/-- `TxAddByte` stores into `TXBUF`, or halts (R270). -/
theorem State.buffersWf.txAddByte {s : State} (h : s.buffersWf) (b : Byte) : (s.txAddByte b).buffersWf := by
  unfold State.txAddByte
  split
  · exact h
  · exact ⟨h.1, Memory.wf_write h.2 _ b⟩

theorem State.buffersWf.txAddBytes {s : State} (h : s.buffersWf) (bytes : List Byte) :
    (s.txAddBytes bytes).buffersWf := by
  induction bytes generalizing s with
  | nil => exact h
  | cons b bs ih =>
    rw [State.txAddBytes]
    split
    · exact h.txAddByte b
    · exact ih (h.txAddByte b)

theorem State.Responds.buffersWf {s t : State} (h : s.Responds t) (hs : s.buffersWf) : t.buffersWf := by
  obtain ⟨bytes, hbefore, -, hafter⟩ := h
  exact (((hs.congr hbefore.buffers).txAddBytes bytes).congr hafter.buffers).congr (State.endDispatch_buffers _)

/-- A byte rule stores at most a payload byte into `RXBUF` (R171). -/
theorem State.buffersWf.byteRule {s : State} (h : s.buffersWf) (b : Byte) : (s.byteRule b).buffersWf := by
  unfold State.buffersWf
  rw [State.byteRule_par, State.byteRule_txbuf]
  refine ⟨?_, h.2⟩
  rcases s.byteRule_rxbuf b with he | he
  · exact he ▸ h.1
  · exact he ▸ Memory.wf_write h.1 _ b

/-- Every rule keeps the buffers in canonical form: they change by a payload byte, by a response and by reset. -/
theorem buffersWf_keeps : Keeps State.buffersWf where
  frame _ _ _ _ _ _ _ _ h := h
  byte s b h _ _ := State.buffersWf.byteRule (s := { s with wdt := 0 }) h b
  error _ h _ _ := h
  idle s h _ _ := by
    obtain ⟨_, _, _, he, -⟩ := s.idle_frame
    exact he ▸ h
  finished s h _ _ := h.congr s.finishedPhase_buffers
  illegal _ _ h _ _ := h
  command s _ h _ _ hc := (s.dispatchRuntime_responds hc).buffersWf h
  request _ _ _ h _ _ ht := (State.dispatchBoot_responds ht).buffersWf h
  unknown _ h _ _ _ := h.congr (State.endDispatch_buffers _)
  tick s h := by
    unfold State.tick
    split
    · split
      · exact ⟨Memory.wf_nil, Memory.wf_nil⟩
      · obtain ⟨_, _, _, _, _, _, _, _, he, -⟩ := State.taStep_frame { s with resetTicks := s.resetTicks + 1 }
        exact he ▸ h
    · obtain ⟨_, _, _, _, _, _, _, _, he, -⟩ := s.taStep_frame
      exact he ▸ h
  reset s torn _ := by
    rw [State.externalReset_eq]
    exact ⟨Memory.wf_nil, Memory.wf_nil⟩

/-- The flash that a reset leaves is in canonical form (R434, R435). -/
theorem State.flashAfterReset_wf (s : State) (torn : Option (List Byte))
    (h : Memory.wf (unlisted s.par .flash) s.flash) : Memory.wf (unlisted s.par .flash) (s.flashAfterReset torn) := by
  cases torn with
  | none => exact h
  | some page =>
    simp only [State.flashAfterReset]
    split
    · exact Memory.wf_writeBytes h _ _
    · exact h

/-- The store and the flash change by writes: `SETID`, `CONFIG`, an accepted `W`, and a reset that cuts into one. -/
theorem storesWf_recordInvariant : RecordInvariant State.storesWf where
  record s t hr h := by
    have hpar : t.par = s.par := congrArg Record.par hr
    have hnvm : t.nvm = s.nvm := congrArg Record.nvm hr
    have hflash : t.flash = s.flash := congrArg Record.flash hr
    simpa only [State.storesWf, hpar, hnvm, hflash] using h
  identity _ h := ⟨Memory.wf_write h.1 _ _, h.2⟩
  configuration _ h := ⟨Memory.wf_write h.1 _ _, h.2⟩
  page s h _ := by
    have hr := s.pageProgrammed_record
    have hpar : s.pageProgrammed.par = s.par := congrArg Record.par hr
    have hnvm : s.pageProgrammed.nvm = s.nvm := congrArg Record.nvm hr
    have hflash : s.pageProgrammed.flash = _ := congrArg Record.flash hr
    simp only [State.storesWf, hpar, hnvm, hflash]
    exact ⟨h.1, Memory.wf_writeBytes h.2 _ _⟩
  error _ h := h
  reset s torn h := by
    rw [State.externalReset_eq]
    exact ⟨h.1, s.flashAfterReset_wf torn h.2⟩

/-- Settles O53: the buffers by the rules of the receiver, the store and the flash by those of the record. -/
theorem stepKeepsMemoriesCanonical : Obligations.StepKeepsMemoriesCanonical := by
  intro s t h hstep
  obtain ⟨hbuffers, hstores⟩ := s.memoriesWf_iff.mp h
  exact t.memoriesWf_iff.mpr
    ⟨buffersWf_keeps.step hbuffers hstep, storesWf_recordInvariant.keeps.step hstores hstep⟩

/-! ## The receiver's registers in each phase -/

/-- No halt, no stop, and nothing on its way out: the turnaround is idle and no response is queued (R45, R48, R182). -/
structure State.LineIdle (s : State) : Prop where
  /-- No fatal halt. -/
  running : s.fatal = false
  /-- No deferred transfer made. -/
  unstopped : s.stopped = false
  /-- The turnaround is idle. -/
  turnaround : s.taState = .rx
  /-- No response is queued. -/
  silent : s.txLen = 2
  /-- The timer interrupts are not masked. -/
  unmasked : s.timerIrqMask = false

/-- What the sync flag, the accumulator, the opcode and the bytes left to eat hold in each phase (R34, R138, R161,
R174). -/
def State.phaseAgrees (s : State) : Prop :=
  match s.phase with
  | .syncing => s.acc = if s.halfSynced then 0xFF else 0
  | .awaiting => s.halfSynced = false
  | .getAddress => s.halfSynced = false ∧ isKnown s.variant s.opcode = true
  | .reading => s.halfSynced = false ∧ isCommand s.opcode = true ∧ isKnown s.variant s.opcode = true
  | .eating => s.halfSynced = false ∧ s.eat ≠ 0
  | .verifying => s.halfSynced = false ∧ isCommand s.opcode = true ∧ isKnown s.variant s.opcode = true
  | .pending => s.halfSynced = false ∧ isCommand s.opcode = true ∧ isKnown s.variant s.opcode = true
  | .finished => s.halfSynced = false
  | .error => s.halfSynced = false
  | .illegal _ => False

theorem State.receiverInv.halfSynced {s : State} (h : s.receiverInv) (hp : s.phase ≠ .syncing) :
    s.halfSynced = false :=
  Bool.eq_false_iff.mpr fun hs => hp (h.halfSync hs)

theorem State.receiverInv.phaseAgrees {s : State} (h : s.receiverInv) : s.phaseAgrees := by
  unfold State.phaseAgrees
  split
  · next hp => exact h.syncSum hp
  · next hp => exact h.halfSynced (by simp [hp])
  · next hp => exact ⟨h.halfSynced (by simp [hp]), h.known hp⟩
  · next hp => exact ⟨h.halfSynced (by simp [hp]), h.command (.inl hp)⟩
  · next hp => exact ⟨h.halfSynced (by simp [hp]), h.eating hp⟩
  · next hp => exact ⟨h.halfSynced (by simp [hp]), h.command (.inr (.inl hp))⟩
  · next hp => exact ⟨h.halfSynced (by simp [hp]), h.command (.inr (.inr hp))⟩
  · next hp => exact h.halfSynced (by simp [hp])
  · next hp => exact h.halfSynced (by simp [hp])
  · next n hp => exact h.encoded n hp

/-- A receiver that runs and is not in `Finished` has an idle line. -/
theorem State.receiverInv.lineIdle {s : State} (h : s.receiverInv) (hh : s.receiverHalted = false)
    (hp : s.phase ≠ .finished) : s.LineIdle where
  running := h.running
  unstopped := (Bool.or_eq_false_iff.mp hh).2
  turnaround := (h.quiet hp).1
  silent := (h.quiet hp).2
  unmasked := h.unmasked

/-- With an idle line the receiver's registers agree when they agree with the phase and a payload fits. -/
theorem State.LineIdle.receiverInv {s : State} (hl : s.LineIdle) (ha : s.phaseAgrees) (hr : s.readingFits) :
    s.receiverInv where
  encoded n hp := by simp [State.phaseAgrees, hp] at ha
  running := hl.running
  quiet _ := ⟨hl.turnaround, hl.silent⟩
  bounded _ := by simp [hl.silent]
  known hp := by
    simp only [State.phaseAgrees, hp] at ha
    exact ha.2
  command hp := by
    rcases hp with hp | hp | hp
    all_goals
      simp only [State.phaseAgrees, hp] at ha
      exact ha.2
  reading := hr
  eating hp := by
    simp only [State.phaseAgrees, hp] at ha
    exact ha.2
  halfSync hs := by
    unfold State.phaseAgrees at ha
    split at ha
    · next hp => exact hp
    all_goals simp [hs] at ha
  syncSum hp := by
    simp only [State.phaseAgrees, hp] at ha
    exact ha
  stoppedIdle hs := absurd hs (by simp [hl.unstopped])
  unmasked := hl.unmasked

/-- In `Finished` the registers agree when a response has at most the longest one's length (R238). -/
theorem State.receiverInv_of_finished {s : State} (hp : s.phase = .finished) (hf : s.fatal = false)
    (hh : s.halfSynced = false) (hs : s.stopped = false) (hm : s.timerIrqMask = false)
    (hl : 2 ≤ s.txLen.toNat ∧ s.txLen.toNat ≤ 14) : s.receiverInv := by
  constructor <;> simp [hp, hf, hh, hs, hm, hl]

/-! ## What a byte does to the receiver's registers -/

/-- A known opcode that is no response's is a command's (R130, R341). -/
theorem isCommand_of_isKnown {v : Variant} {op : Byte} (hk : isKnown v op = true) (hr : isResponse op = false) :
    isCommand op = true := by
  cases v with
  | runtime => simpa [isKnown, hr] using hk
  | boot =>
    have hop : op = opRaw := by simpa [isKnown, hr] using hk
    exact hop ▸ rfl

/-- The boot variant knows one command (R341). -/
theorem eq_opRaw_of_isKnown_boot {op : Byte} (hk : isKnown .boot op = true) (hc : isCommand op = true) :
    op = opRaw := by
  simpa [isKnown, isResponse_of_isCommand hc] using hk

theorem eatResp_ne_zero (op : Byte) : eatResp op ≠ 0 := by
  unfold eatResp
  repeat' split
  all_goals decide

theorem eatCmd_ne_zero (op : Byte) : eatCmd op ≠ 0 := by
  unfold eatCmd payloadLen
  split <;> decide

section
variable {s : State} (b : Byte)

theorem State.rxSyncing_agrees (hl : s.LineIdle) (hp : s.phase = .syncing) (ha : s.phaseAgrees) :
    (s.rxSyncing b).LineIdle ∧ (s.rxSyncing b).phaseAgrees := by
  simp only [State.phaseAgrees, hp] at ha
  unfold State.rxSyncing
  split
  · next hb =>
    split
    · exact ⟨{ hl with }, rfl⟩
    · next hh =>
      refine ⟨{ hl with }, ?_⟩
      simp [State.phaseAgrees, hp, ha, hh, hb]
  · exact ⟨{ hl with }, rfl⟩

theorem State.rxAwaiting_agrees (hl : s.LineIdle) (hp : s.phase = .awaiting) (ha : s.phaseAgrees) :
    (s.rxAwaiting b).LineIdle ∧ (s.rxAwaiting b).phaseAgrees := by
  simp only [State.phaseAgrees, hp] at ha
  unfold State.rxAwaiting
  split
  · next hk => exact ⟨{ hl with }, ha, hk⟩
  · exact ⟨{ hl with }, ha⟩

/-- A known opcode never halts the block in the address filter (R138, R190). -/
theorem State.rxGetAddress_agrees (hl : s.LineIdle) (hp : s.phase = .getAddress) (ha : s.phaseAgrees) :
    (s.rxGetAddress b).LineIdle ∧ (s.rxGetAddress b).phaseAgrees := by
  simp only [State.phaseAgrees, hp] at ha
  obtain ⟨hh, hk⟩ := ha
  unfold State.rxGetAddress
  split
  · exact ⟨{ hl with }, hh, eatResp_ne_zero s.opcode⟩
  next hr =>
  have hc : isCommand s.opcode = true := isCommand_of_isKnown hk (by simpa using hr)
  split
  · next hn => simp [hc] at hn
  split
  · exact ⟨{ hl with }, hh⟩
  split
  · split
    · exact ⟨{ hl with }, hh, hc, hk⟩
    · exact ⟨{ hl with }, hh, hc, hk⟩
  split
  · exact ⟨{ hl with }, hh, (by decide : (1 : BitVec 9) ≠ 0)⟩
  · exact ⟨{ hl with }, hh, eatCmd_ne_zero s.opcode⟩

theorem State.rxReading_agrees (hl : s.LineIdle) (hp : s.phase = .reading) (ha : s.phaseAgrees) :
    (s.rxReading b).LineIdle ∧ (s.rxReading b).phaseAgrees := by
  simp only [State.phaseAgrees, hp] at ha
  obtain ⟨hh, hck⟩ := ha
  unfold State.rxReading State.rxPayloadEnd
  simp only
  split
  · split
    · exact ⟨{ hl with }, hh⟩
    · split
      · exact ⟨{ hl with }, hh, hck⟩
      · refine ⟨{ hl with }, ?_⟩
        simpa [State.phaseAgrees, hp, hh] using hck
  · split
    · exact ⟨{ hl with }, hh, hck⟩
    · refine ⟨{ hl with }, ?_⟩
      simpa [State.phaseAgrees, hp, hh] using hck

theorem State.rxEating_agrees (hl : s.LineIdle) (hp : s.phase = .eating) (ha : s.phaseAgrees) :
    (s.rxEating b).LineIdle ∧ (s.rxEating b).phaseAgrees := by
  simp only [State.phaseAgrees, hp] at ha
  obtain ⟨hh, -⟩ := ha
  have hdyn : BitVec.ofNat 9 (lenExtra + b.toNat + 1) ≠ 0 := by
    intro h
    have := congrArg BitVec.toNat h
    have := b.isLt
    simp [lenExtra] at *
    omega
  unfold State.rxEating
  split
  · refine ⟨{ hl with }, ?_⟩
    simpa only [State.phaseAgrees, hp] using ⟨hh, hdyn⟩
  · split
    · exact ⟨{ hl with }, hh⟩
    · next hn =>
      refine ⟨{ hl with }, ?_⟩
      simpa only [State.phaseAgrees, hp] using ⟨hh, hn⟩

theorem State.rxVerifying_agrees (hl : s.LineIdle) (hp : s.phase = .verifying) (ha : s.phaseAgrees) :
    (s.rxVerifying b).LineIdle ∧ (s.rxVerifying b).phaseAgrees := by
  simp only [State.phaseAgrees, hp] at ha
  unfold State.rxVerifying
  simp only
  split
  · exact ⟨{ hl with }, ha.1⟩
  · split
    · exact ⟨{ hl with }, ha.1⟩
    · exact ⟨{ hl with }, ha⟩

/-- A byte rule keeps the line idle and the registers in agreement with the phase (R161 to R176). -/
theorem State.byteRule_agrees (hl : s.LineIdle) (ha : s.phaseAgrees) :
    (s.byteRule b).LineIdle ∧ (s.byteRule b).phaseAgrees := by
  unfold State.byteRule
  split
  · next hp => exact State.rxSyncing_agrees b hl hp ha
  · next hp => exact State.rxAwaiting_agrees b hl hp ha
  · next hp => exact State.rxGetAddress_agrees b hl hp ha
  · next hp => exact State.rxReading_agrees b hl hp ha
  · next hp => exact State.rxEating_agrees b hl hp ha
  · next hp => exact State.rxVerifying_agrees b hl hp ha
  all_goals exact ⟨hl, ha⟩

end

/-! ## What the other rules do to them -/

/-- The watchdog (R179, R180). -/
theorem State.receiverInv.idle {s : State} (h : s.receiverInv) (hh : s.receiverHalted = false)
    (hc : s.phase.consumes = true) : s.idle.receiverInv := by
  obtain ⟨w, c, p, he, hp⟩ := s.idle_frame
  rw [he]
  rcases hp with rfl | ⟨hsync, rfl⟩
  · exact { h with }
  · have hne : s.phase ≠ .finished := fun hf => by simp [hf, Phase.consumes] at hc
    exact State.LineIdle.receiverInv { h.lineIdle hh hne with } (h.halfSynced hsync) nofun

/-- `Error` (R177). -/
theorem State.receiverInv.errorPhase {s : State} (h : s.receiverInv) (hh : s.receiverHalted = false)
    (hp : s.phase = .error) : s.errorPhase.receiverInv :=
  have hl := h.lineIdle hh (by simp [hp])
  State.LineIdle.receiverInv ⟨hl.running, hl.unstopped, hl.turnaround, rfl, hl.unmasked⟩ (h.halfSynced (by simp [hp]))
    nofun

/-- The end of a message leaves the registers of a frame boundary (R184, R185). -/
theorem State.endMessage_receiverInv {s : State} (hf : s.fatal = false) (ht : s.taState = .rx) (hl : s.txLen = 2)
    (hm : s.timerIrqMask = false) : s.endMessage.receiverInv := by
  constructor <;> simp [State.endMessage, State.deferredTransfers, hf, ht, hl, hm]

/-- `Finished` (R182 to R185). -/
theorem State.receiverInv.finishedPhase {s : State} (h : s.receiverInv) (hh : s.receiverHalted = false)
    (hp : s.phase = .finished) : s.finishedPhase.receiverInv := by
  have hstopped : s.stopped = false := (Bool.or_eq_false_iff.mp hh).2
  have hsync : s.halfSynced = false := h.halfSynced (by simp [hp])
  unfold State.finishedPhase
  split
  · exact h
  next hta =>
  split
  · unfold State.txFlush
    split
    · exact h
    · exact State.receiverInv_of_finished hp h.running hsync hstopped h.unmasked (h.bounded hp)
  · next hlen =>
    refine State.endMessage_receiverInv h.running (Classical.not_not.mp hta) ?_ h.unmasked
    exact BitVec.eq_of_toNat_eq (Nat.le_antisymm (Nat.not_lt.mp hlen) (h.bounded hp).1)

/-- The turnaround moves in `Finished` alone, and at most empties the response (R182, R308). -/
theorem State.receiverInv.taStep {s : State} (h : s.receiverInv) : s.taStep.receiverInv := by
  by_cases hp : s.phase = .finished
  · have hne : s.phase ≠ .syncing := by simp [hp]
    have hstopped : s.stopped = false := Bool.eq_false_iff.mpr fun hs => hne (h.stoppedIdle hs)
    obtain ⟨_, _, _, _, _, len, _, _, he, hlen⟩ := s.taStep_frame
    rw [he]
    refine State.receiverInv_of_finished hp h.running (h.halfSynced hne) hstopped h.unmasked ?_
    rcases hlen with rfl | rfl
    · exact h.bounded hp
    · exact ⟨Nat.le_refl 2, Nat.le_add_left 2 12⟩
  · have hidle : s.taStep = s := by simp [State.taStep, (h.quiet hp).1]
    exact hidle.symm ▸ h

/-- A response queued from an idle line: its bytes are in `TXBUF` behind the sync bytes, and the dispatch has ended. -/
structure State.Queued (s : State) (bytes : List Byte) (t : State) : Prop where
  /-- The dispatch has ended (R181). -/
  phase : t.phase = .finished
  /-- The registers that a response does not change are as before. -/
  kept : (t.par, t.fatal, t.halfSynced, t.stopped) = (s.par, s.fatal, s.halfSynced, s.stopped)
  /-- The timer interrupts are not left masked (R95). -/
  unmasked : t.timerIrqMask = false
  /-- The bytes are counted (R270). -/
  length : t.txLen.toNat = 2 + bytes.length
  /-- The bytes are appended (R270). -/
  buffer : t.txbuf = s.txAppended bytes

/-- With room for every response no dispatch that responds halts the block (R10, R388). -/
theorem State.Responds.queued {s t : State} (h : s.Responds t) (hl : s.LineIdle) (hcap : 14 ≤ s.par.txBufCap) :
    ∃ bytes, bytes.length ≤ 12 ∧ s.Queued bytes t := by
  obtain @⟨r, u, bytes, hbefore, hlen, hafter⟩ := h
  have hr := hbefore.kept
  simp only [State.responder, Prod.mk.injEq] at hr
  obtain ⟨hpar, hfatal, hsync, hstopped, htxLen, -, htxbuf⟩ := hr
  have htwo : r.txLen = 2 := htxLen.trans hl.silent
  have hroom := State.txAddBytes_of_room r bytes (hfatal.trans hl.running) (by simp [htwo, hpar]; omega)
    (by simp [htwo]; omega)
  have hu := hafter.kept
  have hm := hafter.unmasked
  rw [hroom] at hu hm
  simp only [State.responder, Prod.mk.injEq] at hu
  obtain ⟨hpar', hfatal', hsync', hstopped', htxLen', -, htxbuf'⟩ := hu
  have hend : u.endDispatch = { u with phase := .finished } := by
    simp [State.endDispatch, hfatal', hfatal, hl.running]
  rw [hend]
  refine ⟨bytes, hlen, rfl, ?_, hm (hbefore.unmasked hl.unmasked), ?_, ?_⟩
  · simp only [hpar', hfatal', hsync', hstopped', hpar, hfatal, hsync, hstopped]
  · show u.txLen.toNat = _
    rw [htxLen', htwo]
    simp
    omega
  · show u.txbuf = _
    rw [htxbuf']
    simp only [State.txAppended, hpar, htxLen, htxbuf]

/-- A queued response leaves the receiver's registers in agreement (R238). -/
theorem State.Queued.receiverInv {s t : State} {bytes : List Byte} (h : s.Queued bytes t) (hl : s.LineIdle)
    (hsync : s.halfSynced = false) (hlen : bytes.length ≤ 12) : t.receiverInv := by
  have hk := h.kept
  simp only [Prod.mk.injEq] at hk
  obtain ⟨-, hfatal, hhalf, hstopped⟩ := hk
  have := h.length
  exact State.receiverInv_of_finished h.phase (hfatal.trans hl.running) (hhalf.trans hsync)
    (hstopped.trans hl.unstopped) h.unmasked (by omega)

/-- A queued response stands behind the sync bytes (R84, R270). -/
theorem State.Queued.txSeeded {s t : State} {bytes : List Byte} (h : s.Queued bytes t) (hl : s.LineIdle)
    (hs : s.txSeeded) : t.txSeeded := by
  have hk := h.kept
  simp only [Prod.mk.injEq] at hk
  obtain ⟨hpar, -⟩ := hk
  have hbelow {n : Nat} (hn : n < 2) : t.load .txbuf n = s.load .txbuf n := by
    simp only [State.load, State.memory, h.buffer, hpar, State.txAppended, hl.silent]
    exact Memory.read_writeBytes_outside _ _ (.inl hn)
  exact ⟨(hbelow (by decide)).trans hs.1, (hbelow (by decide)).trans hs.2⟩

/-! ## What every step keeps of them -/

/-- With the legal buffer capacities, the receiver's registers in agreement; and the sync bytes in `TXBUF`, if they were
there at first. -/
structure State.Agrees (seeded : Prop) (s : State) : Prop where
  /-- The legal capacity of `RXBUF` (R10). -/
  rxCap : 2 ≤ s.par.rxBufCap
  /-- The legal capacity of `TXBUF` (R10). -/
  txCap : 14 ≤ s.par.txBufCap
  /-- The receiver's registers. -/
  receiver : s.receiverInv
  /-- The sync bytes (R84). -/
  sync : seeded → s.txSeeded

section
variable {seeded : Prop}

/-- Where the parameters and `TXBUF` are as before, the receiver's registers are left to show. -/
theorem State.Agrees.of_buffers {s t : State} (h : s.Agrees seeded) (hpar : t.par = s.par) (htx : t.txbuf = s.txbuf)
    (hr : t.receiverInv) : t.Agrees seeded where
  rxCap := hpar ▸ h.rxCap
  txCap := hpar ▸ h.txCap
  receiver := hr
  sync hq := by simpa only [State.txSeeded, State.load, State.memory, hpar, htx] using h.sync hq

theorem State.Agrees.taStep {s : State} (h : s.Agrees seeded) : s.taStep.Agrees seeded := by
  obtain ⟨_, _, _, _, _, _, _, _, he, -⟩ := s.taStep_frame
  exact h.of_buffers (by rw [he]) (by rw [he]) h.receiver.taStep

theorem State.Agrees.responds {s t : State} (h : s.Agrees seeded) (hh : s.receiverHalted = false)
    (hp : s.phase = .pending) (hr : s.Responds t) : t.Agrees seeded := by
  have hl := h.receiver.lineIdle hh (by simp [hp])
  obtain ⟨bytes, hlen, hq⟩ := hr.queued hl h.txCap
  have hk := hq.kept
  simp only [Prod.mk.injEq] at hk
  obtain ⟨hpar, -⟩ := hk
  exact ⟨hpar ▸ h.rxCap, hpar ▸ h.txCap, hq.receiverInv hl (h.receiver.halfSynced (by simp [hp])) hlen,
    fun hs => hq.txSeeded hl (h.sync hs)⟩

theorem State.Agrees.afterReset {s : State} (h : s.Agrees seeded) (nvm flash : Memory) (ports : Ports)
    (inputs : List Input) (clock : Nat) : (State.afterReset s.par nvm flash ports inputs clock).Agrees seeded :=
  ⟨h.rxCap, h.txCap, State.afterReset_receiverInv .., fun _ => ⟨rfl, rfl⟩⟩

/-- Every rule keeps the receiver's registers in agreement and the sync bytes. -/
theorem agrees_keeps : Keeps (State.Agrees seeded) where
  frame _ _ _ _ _ _ _ _ h := h.of_buffers rfl rfl { h.receiver with }
  byte s b h hh hc := by
    have hne : s.phase ≠ .finished := fun hf => by simp [hf, Phase.consumes] at hc
    have hl : State.LineIdle { s with wdt := 0 } := { h.receiver.lineIdle hh hne with }
    obtain ⟨hl', ha'⟩ := State.byteRule_agrees b hl h.receiver.phaseAgrees
    exact h.of_buffers (State.byteRule_par _ b) (State.byteRule_txbuf _ b)
      (hl'.receiverInv ha' (State.readingFits_byteRule _ b h.rxCap h.receiver.reading))
  error _ h hh hp := h.of_buffers rfl rfl (h.receiver.errorPhase hh hp)
  idle s h hh hc := by
    obtain ⟨_, _, _, he, -⟩ := s.idle_frame
    exact h.of_buffers (by rw [he]) (by rw [he]) (h.receiver.idle hh hc)
  finished s h hh hp := by
    have hb := s.finishedPhase_buffers
    simp only [State.buffers, Prod.mk.injEq] at hb
    obtain ⟨hpar, -, htx⟩ := hb
    exact h.of_buffers hpar htx (h.receiver.finishedPhase hh hp)
  illegal _ n h _ hp := absurd hp (h.receiver.encoded n)
  command s _ h hh hp hc := h.responds hh hp (s.dispatchRuntime_responds hc)
  request _ _ _ h hh hp ht := h.responds hh hp (State.dispatchBoot_responds ht)
  unknown s h _ hp ho := by
    obtain ⟨hc, hk⟩ := h.receiver.command (.inr (.inr hp))
    rcases ho with ho | ⟨hv, ho⟩
    · simp [hc] at ho
    · exact absurd (eq_opRaw_of_isKnown_boot (hv ▸ hk) hc) ho
  tick s h := by
    unfold State.tick
    split
    · split
      · exact h.afterReset ..
      · exact (h.of_buffers (t := { s with resetTicks := s.resetTicks + 1 }) rfl rfl { h.receiver with }).taStep
    · exact h.taStep
  reset s torn h := by
    rw [State.externalReset_eq]
    exact h.afterReset ..

end

/-- Settles O56: the invariant of the registers with the sync bytes, seeded as the state is. -/
theorem stepKeepsReceiverInv : Obligations.StepKeepsReceiverInv := by
  intro s t hrx htx h hstep
  have ht : t.Agrees s.txSeeded := agrees_keeps.step ⟨hrx, htx, h, id⟩ hstep
  exact ⟨ht.receiver, ht.sync⟩

/-! ## An accepted page write -/

/-- A valid self-describing frame received whole and due for dispatch, the strobes low (R187). -/
def State.requested (s : State) (a cmd : Byte) (p : List Byte) : State :=
  { s.framed opRaw a (selfPayload cmd p) with
    acc := 0
    phase := .pending }

/-- At rest, a valid own-addressed self-describing frame that fits the receive buffer is received into `Pending`. -/
theorem State.receive_requested {s : State} {v : Variant} {a cmd c : Byte} {p : List Byte} (hrest : s.atRest v)
    (ha : a = s.ownByte) (hl : p.length ≤ 255) (hfit : p.length + 2 ≤ s.par.rxBufCap)
    (hsum : sumBytes (encodeSelf a cmd p c) = 0) :
    (s.receive (encodeSelf a cmd p c)).clearStrobes = s.requested a cmd p ∧
      (s.receive (encodeSelf a cmd p c)).receiverHalted = false ∧
      (s.receive (encodeSelf a cmd p c)).phase = .pending := by
  obtain ⟨hready, -, hacc, -⟩ := hrest
  rw [State.receive_own_self s a cmd c p hready ha hl hfit hacc hsum]
  exact ⟨rfl, (State.ready_running hready).1, rfl⟩

/-- A valid `W` frame from rest is dispatched with its checks (R350). -/
theorem exec_bW_of_valid {s : State} {a c : Byte} {p : List Byte} (hrest : s.atRest .boot) (ha : a = s.ownByte)
    (hl : p.length ≤ 255) (hfit : p.length + 2 ≤ s.par.rxBufCap) (hvalid : checksumValid (.bW a p c) = true) :
    exec (.bW a p c) s = endDispatchOf (s.requested a cmdW p).bootWBody := by
  obtain ⟨hreceive, hrun, hpending⟩ := State.receive_requested hrest ha hl hfit (beq_iff_eq.mp hvalid)
  obtain ⟨hready, hvariant, -⟩ := hrest
  have hboot : exec (.bW a p c) s =
      runBootFrame (encodeSelf a cmdW p c) (fun t => endDispatchOf t.bootWBody) s := by
    simp only [exec, execBW, hvariant]
    rfl
  rw [hboot, runBootFrame_pending _ _ s _ hready rfl hrun hpending, hreceive]

/-- The bytes of `RXBUF` behind a payload's head are the rest of the payload. -/
theorem State.rxSlice_of_filled (s : State) (head bytes : List Byte) (t : State)
    (ht : t.rxbuf = s.rxFilled (head ++ bytes)) : t.rxSlice head.length bytes.length = bytes := by
  refine List.ext_getElem (by simp [State.rxSlice]) fun i hi hi' => ?_
  have hin : head.length + i < (head ++ bytes).length := by simpa using hi'
  simp [State.rxSlice, State.rxByte_of_filled s _ hin t ht]

section
variable {s : State} {a lo hi c : Byte} {page : List Byte}

/-- The page of a `W` request is read back from `RXBUF` (R350). -/
theorem State.requestPage_requested (hpage : page.length = s.par.pageSize) :
    (s.requested a cmdW (lo :: hi :: page)).requestPage = page := by
  have hslice := State.rxSlice_of_filled s [BitVec.ofNat 8 (page.length + 2), cmdW, lo, hi] page
    (s.requested a cmdW (lo :: hi :: page)) rfl
  rw [hpage] at hslice
  exact hslice

/-- The page checksum of a `W` request is read back from `RXBUF`, little-endian (R86, R350). -/
theorem State.requestChecksum_requested :
    (s.requested a cmdW (lo :: hi :: page)).requestChecksum = lo.toNat + 256 * hi.toNat := by
  have hbyte (i : Nat) (hi' : i < (selfPayload cmdW (lo :: hi :: page)).length) :=
    s.rxByte_of_filled (selfPayload cmdW (lo :: hi :: page)) hi' (s.requested a cmdW (lo :: hi :: page)) rfl
  rw [State.requestChecksum, hbyte 2 (by simp [selfPayload]), hbyte 3 (by simp [selfPayload])]
  rfl

/-- A `W` request with the right length and page checksum passes its checks (R351). -/
theorem State.pageAccepted_requested (hpage : page.length = s.par.pageSize) (hsize : s.par.pageSize ≤ 253)
    (hsum : sumNat page = lo.toNat + 256 * hi.toNat) : (s.requested a cmdW (lo :: hi :: page)).pageAccepted = true := by
  have hlength : (s.requested a cmdW (lo :: hi :: page)).requestLength = s.par.pageSize + 2 := by
    rw [State.requestLength, s.rxByte_of_filled (selfPayload cmdW (lo :: hi :: page)) (i := 0) (by simp [selfPayload])
      (s.requested a cmdW (lo :: hi :: page)) rfl]
    simp [selfPayload]
    omega
  have hmod : (lo.toNat + 256 * hi.toNat) % 65536 = lo.toNat + 256 * hi.toNat := by
    have := lo.isLt
    have := hi.isLt
    omega
  have hpar : (s.requested a cmdW (lo :: hi :: page)).par = s.par := rfl
  simp only [State.pageAccepted, hlength, State.requestPage_requested hpage, State.requestChecksum_requested, hsum,
    hmod, hpar, decide_true, Bool.and_self]

/-- Its checks passed and the page inside the application area and the flash, `W` programs the page (R352). -/
theorem State.bootWBody_accepted {r : State} (ha : r.pageAccepted = true) (hl : r.cursor < r.par.appLimit)
    (hf : r.cursor + r.par.pageSize ≤ 2 ^ r.par.flashAddrW) : r.bootWBody = .next r.programPage := by
  simp [State.bootWBody, ha, Nat.not_le.mpr hl, Nat.not_lt.mpr hf]

/-- An answer that fits the response buffer is queued, and the dispatch ends (R270, R345, R181). -/
theorem State.answer_endDispatch {r : State} (ok : Bool) (hf : r.fatal = false) (hlen : r.txLen = 2)
    (hcap : 14 ≤ r.par.txBufCap) :
    (r.answer ok).endDispatch = { r with
      txbuf := r.txAppended [if ok then statusY else statusN]
      txLen := 3
      phase := .finished } := by
  rw [State.answer, State.txAddBytes_of_room r _ hf (by simp [hlen]; omega) (by simp [hlen])]
  simp [State.endDispatch, hf, hlen]

/-- The page written, with the strobes in order, and the cursor past it (R95, R352). -/
theorem State.pageProgrammed_eq (r : State) :
    r.pageProgrammed = { r with
      flash := Memory.writeBytes (unlisted r.par .flash) r.flash r.cursor r.requestPage
      cursor := r.cursor + r.par.pageSize
      timerIrqMask := false
      calls := r.calls ++ [.timerIrqMask true, .flashErase r.cursor, .flashFill r.requestPage, .flashCommit r.cursor,
        .flashWait, .flashResume, .timerIrqMask false] } := by
  simp only [State.pageProgrammed, State.flashPageWrite, State.storeBytes, State.setMemory, State.memory,
    State.advancedCursor]

/-- An accepted `W` from rest, the page at the end of the flash included: the strobes in order, the page at the cursor,
the cursor past it, `'Y'` (R95, R352). -/
theorem exec_bW_accepted (hrest : s.atRest .boot) (ha : a = s.ownByte)
    (hpage : page.length = s.par.pageSize) (hsize : s.par.pageSize ≤ 253)
    (hfit : s.par.pageSize + 4 ≤ s.par.rxBufCap) (hsum : sumNat page = lo.toNat + 256 * hi.toNat)
    (hlimit : s.cursor < s.par.appLimit) (hflash : s.cursor + s.par.pageSize ≤ 2 ^ s.par.flashAddrW)
    (hvalid : checksumValid (.bW a (lo :: hi :: page) c) = true) :
    exec (.bW a (lo :: hi :: page) c) s = .next { s.framed opRaw a (selfPayload cmdW (lo :: hi :: page)) with
      acc := 0
      flash := Memory.writeBytes (unlisted s.par .flash) s.flash s.cursor page
      cursor := s.cursor + s.par.pageSize
      timerIrqMask := false
      calls := [.timerIrqMask true, .flashErase s.cursor, .flashFill page, .flashCommit s.cursor, .flashWait,
        .flashResume, .timerIrqMask false]
      txbuf := s.txAppended [statusY]
      txLen := 3 } := by
  have hexec := exec_bW_of_valid hrest ha (by simp; omega) (by simp; omega) hvalid
  obtain ⟨hready, -, -, hlen, hcap⟩ := hrest
  have hfatal : s.fatal = false := (Bool.or_eq_false_iff.mp (State.ready_running hready).1).1
  have hprogram : (s.requested a cmdW (lo :: hi :: page)).programPage =
      (s.requested a cmdW (lo :: hi :: page)).pageProgrammed.answer true := rfl
  rw [hexec, State.bootWBody_accepted (State.pageAccepted_requested hpage hsize hsum) hlimit hflash, endDispatchOf,
    hprogram, State.pageProgrammed_eq, State.requestPage_requested hpage,
    State.answer_endDispatch true (by exact hfatal) (by exact hlen) (by exact hcap)]
  rfl

/-- Settles O33: a page below the end of the flash is one inside it. -/
theorem bootWriteProgramsPage : Obligations.BootWriteProgramsPage :=
  fun _ _ _ _ _ _ hrest ha hpage hsize hfit hsum hlimit hflash hvalid =>
    exec_bW_accepted hrest ha hpage hsize hfit hsum hlimit (Nat.le_of_lt hflash) hvalid

end

/-- Settles O34: the flash after an accepted `W` is the flash before it with the page written at the cursor. -/
theorem bootWriteChangesOnlyItsPage : Obligations.BootWriteChangesOnlyItsPage := by
  intro s a lo hi c page hrest hwf ha hpage hsize hfit hsum hlimit hflash hvalid
  obtain ⟨-, -, -, hwfFlash⟩ := hwf
  refine ⟨_, exec_bW_accepted hrest ha hpage hsize hfit hsum hlimit hflash hvalid, fun n hn => ?_, fun n hn => ?_, rfl⟩
  · exact Memory.read_writeBytes_inside hwfFlash s.cursor page hn
  · exact Memory.read_writeBytes_outside s.flash page (hpage.symm ▸ hn)

/-! ## A flush, tick by tick -/

/-- Ticks one after another: the bytes transmitted follow each other. -/
theorem State.tickRun_trans {s t u : State} {m n : Nat} {xs ys : List Byte} (h : s.tickRun m = (t, xs))
    (h' : t.tickRun n = (u, ys)) : s.tickRun (m + n) = (u, xs ++ ys) := by
  induction m generalizing s xs with
  | zero =>
    obtain ⟨rfl, rfl⟩ := Prod.mk.inj h
    rw [Nat.zero_add, h', List.nil_append]
  | succ m ih =>
    rw [State.tickRun] at h
    obtain ⟨ht, rfl⟩ := Prod.mk.inj h
    have hrun := ih (Prod.ext ht rfl)
    rw [Nat.add_right_comm, State.tickRun, hrun]
    simp only
    split <;> rfl

/-- A tick that writes no byte. -/
theorem State.tickRun_one {s t : State} (h : s.clearStrobes.tick = t) (hw : t.txWrite = false) :
    s.tickRun 1 = (t, []) := by
  simp [State.tickRun, h, hw]

/-- A tick that writes a byte. -/
theorem State.tickRun_one_write {s t : State} (h : s.clearStrobes.tick = t) (hw : t.txWrite = true) :
    s.tickRun 1 = (t, [t.txData]) := by
  simp [State.tickRun, h, hw]

/-- A delay: each tick counts the timer down by one, and the tick that finds it at 0 ends it (R303, R306, R308). -/
theorem State.tickRun_delay {f : BitVec 16 → State} {t : State} (hf : ∀ n, (f n).txWrite = false)
    (ht : t.txWrite = false) (hcount : ∀ n, n ≠ 0 → (f n).clearStrobes.tick = f (n - 1))
    (hend : (f 0).clearStrobes.tick = t) (n : BitVec 16) : (f n).tickRun (n.toNat + 1) = (t, []) := by
  generalize hk : n.toNat = k
  induction k generalizing n with
  | zero =>
    obtain rfl : n = 0 := BitVec.eq_of_toNat_eq hk
    exact State.tickRun_one hend ht
  | succ k ih =>
    have hne : n ≠ 0 := by
      rintro rfl
      exact nomatch hk
    have hpred : (n - 1).toNat = k := by bv_omega
    have hfirst := State.tickRun_one (hcount n hne) (hf _)
    rw [Nat.add_comm (k + 1) 1]
    exact State.tickRun_trans hfirst (ih (n - 1) hpred)

/-- The first tick of a run clears the strobes; what else it does not read does not matter to the run. -/
theorem State.tickRun_congr {s t : State} (h : s.clearStrobes.tick = t.clearStrobes.tick) (k : Nat) :
    s.tickRun (k + 1) = t.tickRun (k + 1) := by
  rw [State.tickRun, State.tickRun, h]

/-- A state of the turnaround between two ticks, the strobes low (R52, R58, R59). -/
def State.turnaround (s : State) (ta : TaState) (timer : BitVec 16) (idx : BitVec 9) (de re : Bool) (data : Byte) :
    State :=
  { s with
    taState := ta
    taTimer := timer
    taIdx := idx
    de := de
    re := re
    txData := data
    rxPop := false
    txWrite := false
    calls := [] }

section
variable {s : State} (hf : s.fatal = false) (hr : s.sysResetReq = false)
include hf hr

/-- A tick of a block that runs and awaits no reset is the rule of its turnaround state (R300, R301). -/
theorem State.tick_of_rule (rule : State → State)
    (hrule : s.clearStrobes.taStep = if s.fatal then s.clearStrobes else rule s.clearStrobes) :
    s.clearStrobes.tick = rule s.clearStrobes := by
  have htick : s.clearStrobes.tick = s.clearStrobes.taStep := if_neg (Bool.eq_false_iff.mp hr)
  rw [htick, hrule, if_neg (Bool.eq_false_iff.mp hf)]

/-- `TA_MUTE` stops reading (R302). -/
theorem State.tickRun_mute (hta : s.taState = .mute) :
    s.tickRun 1 = (s.turnaround .pre s.par.tPre s.taIdx s.de false s.txData, []) := by
  have hrule : s.clearStrobes.taStep = if s.fatal then s.clearStrobes else s.clearStrobes.taMute := by
    simp [State.taStep, hta]
  exact State.tickRun_one (State.tick_of_rule hf hr State.taMute hrule) rfl

variable (timer : BitVec 16) (idx : BitVec 9) (de re : Bool) (data : Byte)

/-- `TA_PRE` drives the line and waits (R303). -/
theorem State.tickRun_pre :
    (s.turnaround .pre timer idx de re data).tickRun (timer.toNat + 1) =
      (s.turnaround .tx 0 idx true re data, []) := by
  have hstep (n : BitVec 16) (d : Bool) : (s.turnaround .pre n idx d re data).clearStrobes.tick =
      (s.turnaround .pre n idx true re data).taPre :=
    State.tick_of_rule (s := s.turnaround .pre n idx d re data) hf hr State.taPre rfl
  rw [State.tickRun_congr ((hstep timer de).trans (hstep timer true).symm)]
  exact State.tickRun_delay (f := fun n => s.turnaround .pre n idx true re data) (fun _ => rfl) rfl
    (fun n hn => (hstep n true).trans (if_neg hn)) ((hstep 0 true).trans (if_pos rfl)) timer

/-- `TA_POST` waits (R306). -/
theorem State.tickRun_post :
    (s.turnaround .post timer idx de re data).tickRun (timer.toNat + 1) =
      (s.turnaround .rel 0 idx de re data, []) := by
  have hstep (n : BitVec 16) : (s.turnaround .post n idx de re data).clearStrobes.tick =
      (s.turnaround .post n idx de re data).taPost :=
    State.tick_of_rule (s := s.turnaround .post n idx de re data) hf hr State.taPost rfl
  exact State.tickRun_delay (f := fun n => s.turnaround .post n idx de re data) (fun _ => rfl) rfl
    (fun n hn => (hstep n).trans (if_neg hn)) ((hstep 0).trans (if_pos rfl)) timer

/-- `TA_TRAIL` reads again, waits, and empties the response (R308). -/
theorem State.tickRun_trail :
    (s.turnaround .trail timer idx de re data).tickRun (timer.toNat + 1) =
      ({ s.turnaround .rx 0 0 de true data with txLen := 2 }, []) := by
  have hstep (n : BitVec 16) (r : Bool) : (s.turnaround .trail n idx de r data).clearStrobes.tick =
      (s.turnaround .trail n idx de true data).taTrail :=
    State.tick_of_rule (s := s.turnaround .trail n idx de r data) hf hr State.taTrail rfl
  rw [State.tickRun_congr ((hstep timer re).trans (hstep timer true).symm)]
  exact State.tickRun_delay (f := fun n => s.turnaround .trail n idx de true data) (fun _ => rfl) rfl
    (fun n hn => (hstep n true).trans (if_neg hn)) ((hstep 0 true).trans (if_pos rfl)) timer

/-- `TA_REL` stops driving the line (R307). -/
theorem State.tickRun_rel :
    (s.turnaround .rel timer idx de re data).tickRun 1 = (s.turnaround .trail s.par.tTrail idx false re data, []) :=
  State.tickRun_one (State.tick_of_rule (s := s.turnaround .rel timer idx de re data) hf hr State.taRel rfl) rfl

/-- `TA_DRAIN` with the UART's completion; the strobe of the last byte falls (R305). -/
theorem State.tickRun_drain (hc : s.ports.txComplete = true) (w : Bool) :
    ({ s.turnaround .drain timer idx de re data with txWrite := w } : State).tickRun 1 =
      (s.turnaround .post s.par.tPost idx de re data, []) :=
  State.tickRun_one ((State.tick_of_rule
    (s := { s.turnaround .drain timer idx de re data with txWrite := w }) hf hr State.taDrain rfl).trans
    (if_pos hc)) rfl

/-- `TA_TX` with a ready UART writes the byte at the index; after the byte at `tx_len`, the checksum, it drains
(R304). -/
theorem State.tickRun_tx_one (hready : s.ports.txReady = true) (w : Bool) :
    ({ s.turnaround .tx timer idx de re data with txWrite := w } : State).tickRun 1 =
      ({ s.turnaround (if idx.toNat + 1 = s.txLen.toNat + 1 then .drain else .tx) timer (idx + 1) de re
          (if idx.toNat < s.txLen.toNat then s.txByte idx.toNat else s.txChk) with txWrite := true },
        [if idx.toNat < s.txLen.toNat then s.txByte idx.toNat else s.txChk]) :=
  State.tickRun_one_write ((State.tick_of_rule
    (s := { s.turnaround .tx timer idx de re data with txWrite := w }) hf hr State.taTx rfl).trans (if_pos hready)) rfl

/-- `TA_TX` with a UART that is always ready transmits the rest of the response and its checksum, a byte a tick
(R304). -/
theorem State.tickRun_tx (hready : s.ports.txReady = true) (hlen : s.txLen.toNat < 511) (w : Bool) {m : Nat}
    (hm : idx.toNat + m = s.txLen.toNat) :
    ({ s.turnaround .tx timer idx de re data with txWrite := w } : State).tickRun (m + 1) =
      ({ s.turnaround .drain timer (s.txLen + 1) de re s.txChk with txWrite := true },
        (List.range' idx.toNat m).map s.txByte ++ [s.txChk]) := by
  have hone := State.tickRun_tx_one hf hr timer idx de re data hready w
  induction m generalizing idx data w with
  | zero =>
    have hidx : idx = s.txLen := BitVec.eq_of_toNat_eq hm
    simpa [hidx] using hone
  | succ m ih =>
    have hlt : idx.toNat < s.txLen.toNat := by omega
    have hnext : (idx + 1).toNat = idx.toNat + 1 := by
      rw [BitVec.toNat_add]
      simp
      omega
    rw [if_pos hlt, if_neg (by omega)] at hone
    have hrest := ih (idx + 1) (s.txByte idx.toNat) true (by omega)
      (State.tickRun_tx_one hf hr timer (idx + 1) de re _ hready true)
    rw [Nat.add_comm (m + 1) 1, State.tickRun_trans hone hrest, hnext, List.range'_succ]
    rfl

end

/-- Settles O45: mute, the leading delay, the bytes and the checksum, drain, the delay after them, release, the trailing
delay. -/
theorem flushTransmitsWholeResponse : Obligations.FlushTransmitsWholeResponse := by
  intro s hf hr hta hidx hlen hready hcomplete
  have hmute := State.tickRun_mute hf hr hta
  have hpre := State.tickRun_pre hf hr s.par.tPre s.taIdx s.de false s.txData
  have htx := State.tickRun_tx hf hr 0 0 true false s.txData hready hlen false (m := s.txLen.toNat) (by simp)
  have hdrain := State.tickRun_drain hf hr 0 (s.txLen + 1) true false s.txChk hcomplete true
  have hpost := State.tickRun_post hf hr s.par.tPost (s.txLen + 1) true false s.txChk
  have hrel := State.tickRun_rel hf hr 0 (s.txLen + 1) true false s.txChk
  have htrail := State.tickRun_trail hf hr s.par.tTrail (s.txLen + 1) false false s.txChk
  rw [hidx] at hmute hpre
  have hwhole := State.tickRun_trans hmute (State.tickRun_trans hpre (State.tickRun_trans htx
    (State.tickRun_trans hdrain (State.tickRun_trans hpost (State.tickRun_trans hrel htrail)))))
  have hticks : s.par.tPre.toNat + s.par.tPost.toNat + s.par.tTrail.toNat + (s.txLen.toNat + 1) + 6 =
      1 + (s.par.tPre.toNat + 1 + (s.txLen.toNat + 1 +
        (1 + (s.par.tPost.toNat + 1 + (1 + (s.par.tTrail.toNat + 1)))))) := by
    omega
  rw [hticks, hwhole]
  simp [State.turnaround, State.txQueued, List.range_eq_range']

end Sys2Proof.Machine

/-! # The statements of 30_encoding.md: the decoder and the encoder are inverse, and the checksum -/

namespace Sys2Proof

/-! ## Self-describing frames and the others -/

/-- An instruction whose frame does not describe itself has an encoding whatever its operands, and is of both dialects
(R121, R122, R124). -/
theorem Instr.of_selfFrame_none {i : Instr} (h : i.selfFrame = none) (v : Variant) :
    i.wellFormed = true ∧ i.inDialect v = true := by
  cases i with
  | raw | bS | bI | bW | bR => cases h
  | reqdata | setv0 | setv1 | ping | setlimit | setid | config | sensor | pingR | setidR | dataR | sensorR | rawR | bY
  | bN => cases v <;> exact ⟨rfl, rfl⟩

/-- The one encoding of every self-describing frame (R123). -/
theorem Instr.encode_of_selfFrame {i : Instr} {a cmd c : Byte} {p : List Byte}
    (h : i.selfFrame = some (a, cmd, p, c)) : encode i = encodeSelf a cmd p c := by
  cases i with
  | raw | bS | bI | bW | bR => cases h; rfl
  | reqdata | setv0 | setv1 | ping | setlimit | setid | config | sensor | pingR | setidR | dataR | sensorR | rawR | bY
  | bN => cases h

/-- A self-describing frame has an encoding when one byte counts its payload (R123). -/
theorem Instr.wellFormed_of_selfFrame {i : Instr} {a cmd c : Byte} {p : List Byte}
    (h : i.selfFrame = some (a, cmd, p, c)) : i.wellFormed = true ↔ p.length ≤ 255 := by
  cases i with
  | raw | bS | bI | bW | bR => cases h; exact decide_eq_true_iff
  | reqdata | setv0 | setv1 | ping | setlimit | setid | config | sensor | pingR | setidR | dataR | sensorR | rawR | bY
  | bN => cases h

/-- The decoder's reading of a self-describing frame keeps every field (R123, R345). -/
theorem selfInstr_selfFrame (v : Variant) (a cmd : Byte) (p : List Byte) (c : Byte) :
    (selfInstr v a cmd p c).selfFrame = some (a, cmd, p, c) := by
  cases v with
  | runtime => rfl
  | boot =>
    unfold selfInstr
    split_ifs <;> simp_all [Instr.selfFrame]

/-- The decoder's reading of a self-describing frame is of its variant's dialect (R345, R347). -/
theorem selfInstr_inDialect (v : Variant) (a cmd : Byte) (p : List Byte) (c : Byte) :
    (selfInstr v a cmd p c).inDialect v = true := by
  cases v with
  | runtime => rfl
  | boot =>
    unfold selfInstr
    split_ifs <;> simp_all [Instr.inDialect]

/-- In its own dialect a self-describing instruction is the decoder's reading of its fields (R345, R347). -/
theorem selfInstr_of_selfFrame {i : Instr} {v : Variant} {a cmd c : Byte} {p : List Byte}
    (h : i.selfFrame = some (a, cmd, p, c)) (hd : i.inDialect v = true) : selfInstr v a cmd p c = i := by
  cases i with
  | raw => cases h; cases v <;> simp_all [Instr.inDialect, selfInstr]
  | bS | bI | bW | bR =>
    cases h
    cases v with
    | runtime => cases hd
    | boot => rfl
  | reqdata | setv0 | setv1 | ping | setlimit | setid | config | sensor | pingR | setidR | dataR | sensorR | rawR | bY
  | bN => cases h

/-! ## Decode of encode -/

/-- The length byte splits the bytes that follow it into the payload and the rest (R123). -/
theorem decode_encodeSelf (v : Variant) (a cmd c : Byte) {p : List Byte} (rest : List Byte) (hp : p.length ≤ 255) :
    decode v (encodeSelf a cmd p c ++ rest) = .ok (selfInstr v a cmd p c, rest) := by
  have hl : (BitVec.ofNat 8 p.length).toNat = p.length := by
    rw [BitVec.toNat_ofNat]
    omega
  have hself : decode v (encodeSelf a cmd p c ++ rest) =
      decodeSelf v (a :: BitVec.ofNat 8 p.length :: cmd :: (p ++ c :: rest)) := by
    simp only [encodeSelf, List.append_assoc]
    rfl
  simp [hself, decodeSelf, hl]

/-- Settles O1: a self-describing frame is split at its length byte, a word is put together from its two bytes, and
every other frame is read byte by byte. -/
theorem decodeOfEncodeGivesInstruction : Obligations.DecodeOfEncodeGivesInstruction := by
  intro v i rest hw hd
  cases hs : i.selfFrame with
  | some f =>
    obtain ⟨a, cmd, p, c⟩ := f
    rw [Instr.encode_of_selfFrame hs, decode_encodeSelf v a cmd c rest ((Instr.wellFormed_of_selfFrame hs).mp hw),
      selfInstr_of_selfFrame hs hd]
  | none =>
    cases i with
    | raw | bS | bI | bW | bR => cases hs
    | dataR a w0 w1 w2 w3 w4 c =>
      simp [encode, decode, decodeOpcode, wordBytes, decodeFiveWords]
    | sensorR a x y z c =>
      simp [encode, decode, decodeOpcode, wordBytes, decodeThreeWords]
    | reqdata | setv0 | setv1 | ping | setlimit | setid | config | sensor | pingR | setidR | rawR | bY | bN => rfl

/-! ## Encode of decode -/

/-- What the decoder answers on `bytes`, if it accepts them: a well-formed instruction of the dialect, whose encoding
with the bytes left is `bytes`. -/
def Faithful (v : Variant) (bytes : List Byte) (d : Decoded) : Prop :=
  ∀ i rest, d = .ok (i, rest) → i.wellFormed = true ∧ i.inDialect v = true ∧ encode i ++ rest = bytes

theorem Faithful.error {v : Variant} {bytes : List Byte} {e : DecodeError} : Faithful v bytes (.error e) := by
  intro i rest h
  cases h

/-- An accepted frame that does not describe itself (R121, R122, R124). -/
theorem Faithful.ok {v : Variant} {bytes rest : List Byte} {i : Instr} (hi : i.selfFrame = none)
    (he : encode i ++ rest = bytes) : Faithful v bytes (.ok (i, rest)) := by
  intro j after h
  cases h
  obtain ⟨hw, hd⟩ := Instr.of_selfFrame_none hi v
  exact ⟨hw, hd, he⟩

/-- A row of the opcode table: its own opcode goes to its reader, the others to the rows after it (R131, R139). -/
theorem Faithful.row {v : Variant} {op opRow : Byte} {bytes : List Byte} {d e : Decoded}
    (hrow : Faithful v (sync :: sync :: opRow :: bytes) d) (hrest : Faithful v (sync :: sync :: op :: bytes) e) :
    Faithful v (sync :: sync :: op :: bytes) (if op == opRow then d else e) := by
  split
  · next h =>
    rw [eq_of_beq h]
    exact hrow
  · exact hrest

/-- The payload taken has as many bytes as the length byte says, so the encoder writes that length byte again
(R123). -/
theorem encodeSelf_take {a l cmd chk : Byte} {rest after : List Byte} (h : rest.drop l.toNat = chk :: after) :
    (rest.take l.toNat).length = l.toNat ∧
    encodeSelf a cmd (rest.take l.toNat) chk ++ after = sync :: sync :: opRaw :: a :: l :: cmd :: rest := by
  have hlen : (rest.take l.toNat).length = l.toNat := by
    have := congrArg List.length h
    simp only [List.length_drop, List.length_cons] at this
    rw [List.length_take]
    omega
  refine ⟨hlen, ?_⟩
  have hsplit : rest.take l.toNat ++ chk :: after = rest := by rw [← h, List.take_append_drop]
  simp [encodeSelf, hlen, hsplit, -List.length_take]

section
variable (v : Variant) {op : Byte} (bytes : List Byte)

theorem decodeBare_faithful {f : Byte → Byte → Instr} (hs : ∀ a c, (f a c).selfFrame = none)
    (he : ∀ a c, encode (f a c) = [sync, sync, op, a, c]) :
    Faithful v (sync :: sync :: op :: bytes) (decodeBare f bytes) := by
  unfold decodeBare
  split
  · next a c rest => exact .ok (hs a c) (congrArg (· ++ rest) (he a c))
  · exact .error

theorem decodeOne_faithful {f : Byte → Byte → Byte → Instr} (hs : ∀ a p c, (f a p c).selfFrame = none)
    (he : ∀ a p c, encode (f a p c) = [sync, sync, op, a, p, c]) :
    Faithful v (sync :: sync :: op :: bytes) (decodeOne f bytes) := by
  unfold decodeOne
  split
  · next a p c rest => exact .ok (hs a p c) (congrArg (· ++ rest) (he a p c))
  · exact .error

theorem decodeStatus_faithful {f : Byte → Instr} (hs : ∀ c, (f c).selfFrame = none)
    (he : ∀ c, encode (f c) = [sync, sync, op, c]) :
    Faithful v (sync :: sync :: op :: bytes) (decodeStatus f bytes) := by
  unfold decodeStatus
  split
  · next c rest => exact .ok (hs c) (congrArg (· ++ rest) (he c))
  · exact .error

theorem decodeFiveWords_faithful : Faithful v (sync :: sync :: opDataR :: bytes) (decodeFiveWords bytes) := by
  unfold decodeFiveWords
  split
  · exact .ok rfl (by simp [encode, wordBytes])
  · exact .error

theorem decodeThreeWords_faithful : Faithful v (sync :: sync :: opSensorR :: bytes) (decodeThreeWords bytes) := by
  unfold decodeThreeWords
  split
  · exact .ok rfl (by simp [encode, wordBytes])
  · exact .error

theorem decodeSelf_faithful : Faithful v (sync :: sync :: opRaw :: bytes) (decodeSelf v bytes) := by
  unfold decodeSelf
  split
  · next a l cmd rest =>
    split
    · exact .error
    · next chk after h =>
      intro i tail hi
      cases hi
      obtain ⟨hlen, henc⟩ := encodeSelf_take (a := a) (cmd := cmd) h
      have hs := selfInstr_selfFrame v a cmd (rest.take l.toNat) chk
      have := l.isLt
      exact ⟨(Instr.wellFormed_of_selfFrame hs).mpr (by omega), selfInstr_inDialect .., by
        rw [Instr.encode_of_selfFrame hs, henc]⟩
  · exact .error

/-- The rows in the order in which the decoder compares them (R131). -/
theorem decodeOpcode_faithful (op : Byte) : Faithful v (sync :: sync :: op :: bytes) (decodeOpcode v op bytes) :=
  .row (decodeBare_faithful v bytes (fun _ _ => rfl) fun _ _ => rfl) <| -- REQDATA
  .row (decodeOne_faithful v bytes (fun _ _ _ => rfl) fun _ _ _ => rfl) <| -- SETV0
  .row (decodeOne_faithful v bytes (fun _ _ _ => rfl) fun _ _ _ => rfl) <| -- SETV1
  .row (decodeBare_faithful v bytes (fun _ _ => rfl) fun _ _ => rfl) <| -- PING
  .row (decodeOne_faithful v bytes (fun _ _ _ => rfl) fun _ _ _ => rfl) <| -- SETLIMIT
  .row (decodeOne_faithful v bytes (fun _ _ _ => rfl) fun _ _ _ => rfl) <| -- SETID
  .row (decodeOne_faithful v bytes (fun _ _ _ => rfl) fun _ _ _ => rfl) <| -- CONFIG
  .row (decodeOne_faithful v bytes (fun _ _ _ => rfl) fun _ _ _ => rfl) <| -- SENSOR
  .row (decodeSelf_faithful v bytes) <| -- RAW
  .row (decodeBare_faithful v bytes (fun _ _ => rfl) fun _ _ => rfl) <| -- PING_R
  .row (decodeBare_faithful v bytes (fun _ _ => rfl) fun _ _ => rfl) <| -- SETID_R
  .row (decodeFiveWords_faithful v bytes) <| -- DATA_R
  .row (decodeThreeWords_faithful v bytes) <| -- SENSOR_R
  .row (decodeBare_faithful v bytes (fun _ _ => rfl) fun _ _ => rfl) <| -- RAW_R
  .row (decodeStatus_faithful v bytes (fun _ => rfl) fun _ => rfl) <| -- Y
  .row (decodeStatus_faithful v bytes (fun _ => rfl) fun _ => rfl) <| -- N
  .error

theorem decode_faithful : Faithful v bytes (decode v bytes) := by
  unfold decode
  split
  · next s0 s1 op rest =>
    split
    · next h =>
      obtain ⟨rfl, rfl⟩ : s0 = sync ∧ s1 = sync := by simpa using h
      exact decodeOpcode_faithful v rest op
    · exact .error
  · exact .error

end

/-- Settles O2: every row's reader takes the bytes that its encoder writes. -/
theorem decodedBytesAreTheEncoding : Obligations.DecodedBytesAreTheEncoding :=
  fun v bytes rest i => decode_faithful v bytes i rest

/-! ## Frames of the specification -/

/-- Settles O3, by running the decoder on each frame. -/
theorem specFramesDecode : Obligations.SpecFramesDecode :=
  ⟨rfl, rfl, rfl, rfl, rfl, rfl⟩

end Sys2Proof

namespace Sys2Proof.Machine

/-! ## The checksum byte -/

/-- Settles O4: the two sync bytes sum to -2, so the sum of the frame is the checksum byte less `2 - sumBytes body`. -/
theorem checksumIsTwoMinusSum : Obligations.ChecksumIsTwoMinusSum := by
  intro body c
  have hsync : (sync + sync : Byte) = -2 := by decide
  have hsum : sumBytes ([sync, sync] ++ body ++ [c]) = c - (2 - sumBytes body) :=
    calc sumBytes (sync :: sync :: (body ++ [c]))
      _ = sync + sync + sumBytes body + c := sumBytes_frame body c
      _ = c - (2 - sumBytes body) := by rw [hsync]; abel
  rw [hsum, sub_eq_zero]

end Sys2Proof.Machine

/-! # The statements of 40_receiver.md: frames that are not dispatched, the receiver's steps, and its waits -/

namespace Sys2Proof

/-! ## The commands of fixed length -/

/-- The one encoding of every command of fixed length, whose opcode is a command's and tells the payload's length (R121,
R131, R133). -/
theorem Instr.of_fixedCommand {i : Instr} {op a c : Byte} {p : List Byte} (h : i.fixedCommand = some (op, a, p, c)) :
    encode i = sync :: sync :: op :: a :: (p ++ [c]) ∧ isCommand op = true ∧ op ≠ opRaw ∧
      p.length = (payloadLen op).toNat := by
  cases i with
  | reqdata | setv0 | setv1 | ping | setlimit | setid | config | sensor => cases h; exact ⟨rfl, rfl, by decide, rfl⟩
  | raw | pingR | setidR | dataR | sensorR | rawR | bS | bI | bW | bR | bY | bN => cases h

/-- A device in the runtime variant knows every command (R130). -/
theorem isKnown_runtime {op : Byte} (hc : isCommand op = true) : isKnown .runtime op = true := by
  simp [isKnown, hc]

/-- A device in the boot variant knows of the commands the self-describing one alone (R341). -/
theorem isKnown_boot {op : Byte} (hc : isCommand op = true) (hr : op ≠ opRaw) : isKnown .boot op = false := by
  rw [isKnown, Machine.isResponse_of_isCommand hc, Bool.or_false]
  exact beq_eq_false_iff_ne.mpr hr

/-- Either variant knows the self-describing opcode (R130, R341). -/
theorem isKnown_raw (v : Variant) : isKnown v opRaw = true := by
  cases v <;> rfl

/-- A foreign command is eaten with its checksum byte (R134). -/
theorem eatCmd_toNat (op : Byte) : (eatCmd op).toNat = (payloadLen op).toNat + 1 := by
  have := Machine.payloadLen_le op
  rw [eatCmd, BitVec.toNat_add]
  simp
  omega

end Sys2Proof

namespace Sys2Proof.Machine

/-! ## How a frame that is not dispatched ends -/

/-- Every instruction is its frame run whole, with an effect or a dispatch of its own in `Pending` (R2). -/
theorem exec_eq_run (i : Instr) (s : State) :
    (∃ body, exec i s = runFrame (encode i) body s) ∨ ∃ dispatch, exec i s = runBootFrame (encode i) dispatch s := by
  cases i with
  | raw =>
    simp only [exec, execRaw]
    split
    · exact .inl ⟨_, rfl⟩
    · exact .inr ⟨_, rfl⟩
  | bW =>
    simp only [exec, execBW]
    split
    · exact .inl ⟨_, rfl⟩
    · exact .inr ⟨_, rfl⟩
  | bS | bI | bR =>
    simp only [exec, execBS, execBI, execBR]
    split <;> exact .inl ⟨_, rfl⟩
  | reqdata | setv0 | setv1 | ping | setlimit | setid | config | sensor | pingR | setidR | dataR | sensorR | rawR | bY
  | bN => exact .inl ⟨_, rfl⟩

/-- A frame that the receiver eats or drops has no further effect (R165, R174). -/
theorem exec_of_finished {i : Instr} {s r : State} (hs : s.ready = true) (hr : s.receive (encode i) = r)
    (hp : r.phase = .finished) : exec i s = .next r := by
  rcases exec_eq_run i s with ⟨body, he⟩ | ⟨dispatch, he⟩
  · rw [he, runFrame_finished _ body s r hs hr hp]
  · rw [he, runBootFrame_finished _ dispatch s r hs hr hp]

/-- `Error` counts the error, drops the queued response and goes to `Finished` (R177). -/
theorem State.errorPhase_eq (s : State) :
    s.errorPhase = { s with errCount := s.errCountNext, txLen := 2, phase := .finished } := by
  unfold State.errorPhase State.errCountNext
  split
  · next h => rw [h]; rfl
  · rfl

/-- A frame that the receiver finds in error is counted, whatever its own effect (R177). -/
theorem exec_of_error {i : Instr} {s r : State} (hs : s.ready = true) (hr : s.receive (encode i) = r)
    (hh : r.receiverHalted = false) (hp : r.phase = .error) :
    exec i s = .next { r.clearStrobes with errCount := r.errCountNext, txLen := 2, phase := .finished } := by
  have hcounted : exec i s = .next r.clearStrobes.errorPhase := by
    rcases exec_eq_run i s with ⟨body, he⟩ | ⟨dispatch, he⟩
    · rw [he, runFrame_error _ body s r hs hr hh hp]
    · rw [he, runBootFrame_error _ dispatch s r hs hr hh hp]
  rw [hcounted, State.errorPhase_eq]
  rfl

/-! ## Frames that are eaten or dropped -/

/-- Settles O22: what follows the address byte is as long as the opcode says, and is eaten. -/
theorem foreignCommandsAreEaten : Obligations.ForeignCommandsAreEaten := by
  intro s i op a c p hs hv hi hle ha
  obtain ⟨henc, hcmd, hraw, hlen⟩ := Instr.of_fixedCommand hi
  have hfeed := State.feed_foreign_fixed s.clearStrobes op a (p ++ [c]) [] hs (hv ▸ isKnown_runtime hcmd) hcmd hraw hle
    ha (by rw [eatCmd_toNat, List.length_append, hlen]; rfl)
  rw [List.append_nil, ← henc] at hfeed
  exact exec_of_finished hs (State.receive_of_feed hfeed) rfl

/-- Settles O23: what follows the length byte is as long as that says, with the command and the checksum byte, and is
eaten. -/
theorem foreignSelfFramesAreEaten : Obligations.ForeignSelfFramesAreEaten := by
  intro s i a cmd c p hs hw hi hle ha
  have hl : p.length ≤ 255 := (Instr.wellFormed_of_selfFrame hi).mp hw
  have hlen : (cmd :: (p ++ [c])).length = (BitVec.ofNat 8 p.length).toNat + 2 := by
    simp
    omega
  have henc : encode i = sync :: sync :: opRaw :: a :: BitVec.ofNat 8 p.length :: (cmd :: (p ++ [c])) :=
    Instr.encode_of_selfFrame hi
  have hfeed := State.feed_foreign_self s.clearStrobes a _ [] _ hs hle ha hlen
  rw [List.append_nil, ← henc] at hfeed
  exact exec_of_finished hs (State.receive_of_feed hfeed) rfl

/-- Settles O28: the opcode byte is unknown. -/
theorem runtimeCommandsAreDroppedInBoot : Obligations.RuntimeCommandsAreDroppedInBoot := by
  intro s i op a c p hs hv hi
  obtain ⟨henc, hcmd, hraw, -⟩ := Instr.of_fixedCommand hi
  refine exec_of_finished hs ?_ rfl
  rw [henc]
  exact State.receive_unknown s op _ hs (hv ▸ isKnown_boot hcmd hraw)

/-! ## Frames that are counted as errors -/

/-- A command to an address out of range, in a variant that knows it: the bytes after the address stay on the line
(R167, R188). -/
theorem exec_addrRange {i : Instr} {s : State} {op a : Byte} {rest : List Byte} (hs : s.ready = true)
    (henc : encode i = sync :: sync :: op :: a :: rest) (hk : isKnown s.variant op = true) (hc : isCommand op = true)
    (ha : 127 < a.toNat) :
    exec i s = .next { s with
      opcode := op
      addr := a
      acc := s.acc + 0xFF + 0xFF + op
      wdt := 0
      rxPop := false
      txWrite := false
      calls := []
      lastCause := .addrRange
      errCount := s.errCountNext
      txLen := 2
      phase := .finished
      rxq := rest ++ s.rxq } := by
  have hreceive := State.receive_of_feed (State.feed_addrRange s.clearStrobes op a rest hs hk hc ha)
  rw [← henc] at hreceive
  exact exec_of_error hs hreceive (State.ready_running hs).1 rfl

/-- Settles O24: both forms of a command meet the address filter with the same rule. -/
theorem addressOutOfRangeIsCounted : Obligations.AddressOutOfRangeIsCounted := by
  constructor
  · intro s i op a c p hs hv hi ha
    obtain ⟨henc, hcmd, -⟩ := Instr.of_fixedCommand hi
    exact exec_addrRange hs henc (hv ▸ isKnown_runtime hcmd) hcmd ha
  · intro s i a cmd c p hs hi ha
    exact exec_addrRange hs (Instr.encode_of_selfFrame hi) (isKnown_raw _) rfl ha

/-- Settles O27: the length byte ends the frame for the receiver. -/
theorem lengthOutOfRangeIsCounted : Obligations.LengthOutOfRangeIsCounted := by
  intro s i a cmd c p hs hw hi ha hcap
  have hl : p.length ≤ 255 := (Instr.wellFormed_of_selfFrame hi).mp hw
  have hlen : (BitVec.ofNat 8 p.length).toNat = p.length := by
    simp
    omega
  have hreceive := State.receive_of_feed (State.feed_lenRange s.clearStrobes a (BitVec.ofNat 8 p.length)
    (cmd :: p ++ [c]) hs ha (by rw [hlen]; exact hcap))
  have henc : encode i = sync :: sync :: opRaw :: a :: BitVec.ofNat 8 p.length :: (cmd :: p ++ [c]) :=
    Instr.encode_of_selfFrame hi
  rw [← henc] at hreceive
  exact exec_of_error hs hreceive (State.ready_running hs).1 rfl

/-- An own-addressed frame received up to its checksum byte (R168, R169, R171, R173). -/
def State.awaitingChecksum (s : State) (op a : Byte) (p : List Byte) : State :=
  { s.framed op a p with
    acc := s.acc + 0xFF + 0xFF + op + a + sumBytes p
    rxPop := true
    phase := .verifying }

/-- An own-addressed frame whose checksum byte does not make its sum 0 is counted and not dispatched (R176, R177). -/
theorem exec_badChecksum {i : Instr} {s : State} {op a c : Byte} {p : List Byte} (hs : s.ready = true)
    (hacc : s.acc = 0) (henc : encode i = sync :: sync :: op :: a :: (p ++ [c]))
    (hfeed : s.clearStrobes.feed (encode i) = (s.awaitingChecksum op a p).feed [c])
    (hbad : checksumValid i = false) :
    exec i s = .next { s.framed op a p with
      acc := sumBytes (encode i)
      lastCause := .badChecksum
      errCount := s.errCountNext
      txLen := 2 } := by
  have hrun : s.receiverHalted = false := (State.ready_running hs).1
  have hsum : (s.awaitingChecksum op a p).acc + c = sumBytes (encode i) := by
    have hframe := sumBytes_frame (op :: a :: p) c
    rw [henc]
    refine Eq.trans ?_ hframe.symm
    simp only [State.awaitingChecksum, hacc, sumBytes]
    abel
  have hne : (s.awaitingChecksum op a p).acc + c ≠ 0 := by
    rw [hsum]
    exact beq_eq_false_iff_ne.mp hbad
  rw [State.feed_checksum_bad (s.awaitingChecksum op a p) c hrun rfl hne, hsum] at hfeed
  exact exec_of_error hs (State.receive_of_feed hfeed) hrun rfl

/-- Settles O25: the sum is tested before the identity range, so the operands do not matter. -/
theorem badChecksumIsCounted : Obligations.BadChecksumIsCounted := by
  constructor
  · intro s i op a c p hs hv hacc hi ha hbad
    obtain ⟨henc, hcmd, hraw, hlen⟩ := Instr.of_fixedCommand hi
    refine exec_badChecksum hs hacc henc ?_ hbad
    rw [henc]
    exact State.feed_own_fixed s.clearStrobes op a p [c] hs (hv ▸ isKnown_runtime hcmd) hcmd hraw ha hlen
  · intro s i a cmd c p hs hacc hw hi ha hfit hbad
    have henc := Instr.encode_of_selfFrame hi
    refine exec_badChecksum hs hacc henc ?_ hbad
    rw [henc]
    exact State.feed_own_self s.clearStrobes a cmd p [c] hs ha ((Instr.wellFormed_of_selfFrame hi).mp hw) hfit

/-! ## The service step of each phase -/

/-- A halted or stopped receiver takes no step (R160, R386). -/
theorem State.serviceStep_halted {s : State} (hh : s.receiverHalted = true) : s.serviceStep = .next s :=
  if_pos hh

theorem State.serviceStep_finished {s : State} (hh : s.receiverHalted = false) (hp : s.phase = .finished) :
    s.serviceStep = .next s.finishedPhase := by
  simp [State.serviceStep, hh, hp]

/-- An unencoded phase halts the block (R190). -/
theorem State.serviceStep_illegal {s : State} {n : Fin 7} (hh : s.receiverHalted = false) (hp : s.phase = .illegal n) :
    s.serviceStep = .next (s.raiseFatal .illegalState) := by
  simp [State.serviceStep, hh, hp]

/-- A service step that waits for a byte and finds none (R179, R180). -/
theorem State.serviceStep_silent {s : State} (hh : s.receiverHalted = false) (hc : s.phase.consumes = true)
    (hq : s.rxq = []) : s.serviceStep = .next s.idle := by
  have hb : s.bytePhase = .next s.idle := by simp only [State.bytePhase, hq]
  unfold State.serviceStep
  rw [if_neg (by simp [hh])]
  split
  iterate 6 exact hb
  all_goals next hp => rw [hp] at hc; exact nomatch hc

/-- Settles O40: a step that finds no byte is the watchdog's. -/
theorem watchdogAbortsSilentFrame : Obligations.WatchdogAbortsSilentFrame := by
  intro s hh hq
  refine ⟨fun hp => ?_, fun hc hp hw => ?_, fun hc hp hw => ?_⟩
  · rw [State.serviceStep_silent hh (by rw [hp]; rfl) hq, State.idle, if_pos hp]
  · rw [State.serviceStep_silent hh hc hq, State.idle, if_neg hp, if_pos hw]
    rfl
  · rw [State.serviceStep_silent hh hc hq, State.idle, if_neg hp, if_neg hw]

/-- A dispatch of an opcode outside the command set of the variant halts the block (R181, R387). -/
theorem State.pendingPhase_unknown {s : State}
    (h : (s.variant = .runtime ∧ isCommand s.opcode = false) ∨ (s.variant = .boot ∧ s.opcode ≠ opRaw)) :
    s.pendingPhase = .next (s.raiseFatal .unknownOpcode) := by
  rcases h with ⟨hv, hc⟩ | ⟨hv, hr⟩
  · rw [State.pendingPhase_runtime hv, State.dispatchRuntime_unknown s hc]
    rfl
  · simp only [State.pendingPhase, hv, if_neg hr]
    rfl

/-- Settles O49: both halts are `raiseFatal`, in the step's own state. -/
theorem fatalCausesHalt : Obligations.FatalCausesHalt := by
  intro s hh
  refine ⟨fun n hp => ?_, fun hp hunknown => ?_⟩
  · rw [State.serviceStep_illegal hh hp]
    rfl
  · rw [State.serviceStep_pending hh hp, State.pendingPhase_unknown hunknown]
    rfl

/-! ## `Finished` -/

/-- `Finished` holds while the turnaround runs (R182). -/
theorem State.finishedPhase_flushing {s : State} (hta : s.taState ≠ .rx) : s.finishedPhase = s :=
  if_pos hta

/-- `Finished` starts the flush of a queued response (R183, R272). -/
theorem State.finishedPhase_queued {s : State} (hta : s.taState = .rx) (hlen : 2 < s.txLen.toNat) :
    s.finishedPhase = { s with txChk := checksumOf s.txQueued, taIdx := 0, taState := .mute } := by
  have hne : s.txLen ≠ 2 := by
    intro h
    rw [h] at hlen
    exact absurd hlen (by decide)
  rw [State.finishedPhase, if_neg (not_not_intro hta), if_pos hlen, State.txFlush, if_neg hne]

/-- `Finished` with nothing to transmit ends the message (R184). -/
theorem State.finishedPhase_empty {s : State} (hta : s.taState = .rx) (hlen : s.txLen = 2) :
    s.finishedPhase = s.endMessage := by
  rw [State.finishedPhase, if_neg (not_not_intro hta), if_neg (by simp [hlen])]

/-- Settles O42: a step of `Finished` is one of its three rules. -/
theorem finishedFlushesThenEnds : Obligations.FinishedFlushesThenEnds := by
  intro s hh hp
  rw [State.serviceStep_finished hh hp]
  refine ⟨fun hta => ?_, fun hta hlen => ?_, fun hta hlen => ?_⟩
  · rw [State.finishedPhase_flushing hta]
  · rw [State.finishedPhase_queued hta hlen]
    rfl
  · rw [State.finishedPhase_empty hta hlen]
    rfl

/-! ## The way back to `Syncing` -/

/-- The frame boundary after a message that leaves no transfer to make: the message's registers cleared, the strobes low
(R184). -/
def State.messageEnded (s : State) : State :=
  { s with
    acc := 0
    count := 0
    expected := 0
    eat := 0
    eatDyn := false
    opcode := 0x00
    addr := 0x00
    halfSynced := false
    wdt := 0
    rxPop := false
    txWrite := false
    calls := []
    phase := .syncing }

/-- Nothing is on its way out: the turnaround is idle, no response is queued, no transfer is deferred (R182, R185). -/
structure State.NothingPending (s : State) : Prop where
  /-- The turnaround is idle. -/
  turnaround : s.taState = .rx
  /-- No response is queued. -/
  silent : s.txLen = 2
  /-- No handoff is deferred. -/
  noHandoff : s.handoffPending = false
  /-- No reset is deferred. -/
  noReset : s.resetPending = false

/-- The end of a message that leaves nothing to make (R184, R185). -/
theorem State.endMessage_of_nothingPending {s : State} (hi : s.NothingPending) :
    s.clearStrobes.endMessage = s.messageEnded := by
  simp [State.endMessage, State.deferredTransfers, State.messageEnded, State.clearStrobes, hi.noHandoff, hi.noReset]

/-- The first step of a run. -/
theorem State.serviceRun_succ {s t : State} (h : s.clearStrobes.serviceStep = .next t) (k : Nat) :
    s.serviceRun (k + 1) = t.serviceRun k := by
  rw [State.serviceRun, h]

/-- Service steps one after another. -/
theorem State.serviceRun_trans {s t : State} {m : Nat} (h : s.serviceRun m = .next t) (n : Nat) :
    s.serviceRun (m + n) = t.serviceRun n := by
  induction m generalizing s with
  | zero => rw [Nat.zero_add, Host.Outcome.next.inj h]
  | succ m ih =>
    rw [State.serviceRun] at h
    split at h
    · next u hu => rw [Nat.add_right_comm, State.serviceRun_succ hu, ih h]
    · cases h
    · cases h

/-- A run that reaches `Finished` with nothing to make ends the message in one step more (R184). -/
theorem State.serviceRun_finished {s t : State} {m : Nat} (h : s.serviceRun m = .next t)
    (hh : t.receiverHalted = false) (hp : t.phase = .finished) (hi : t.NothingPending) :
    s.serviceRun (m + 1) = .next t.messageEnded := by
  rw [State.serviceRun_trans h, State.serviceRun_one, State.serviceStep_finished (s := t.clearStrobes) hh hp,
    State.finishedPhase_empty (s := t.clearStrobes) hi.turnaround hi.silent, State.endMessage_of_nothingPending hi]

/-- Settles O41: one step counts the error, the next ends the message. -/
theorem errorCountsAndRecovers : Obligations.ErrorCountsAndRecovers := by
  intro s hh hp hta hhandoff hreset
  have hcount : s.serviceRun 1 = .next s.clearStrobes.errorPhase := by
    rw [State.serviceRun_one, State.serviceStep_error (s := s.clearStrobes) hh hp]
  rw [State.errorPhase_eq] at hcount
  exact State.serviceRun_finished hcount hh rfl ⟨hta, rfl, hhandoff, hreset⟩

/-! ## Bytes in `Syncing` -/

/-- The receiver outside a payload after a step that consumed a byte: what the byte rules of `Syncing` and `Awaiting`
write, and the strobes of that step (R160 to R165). -/
def State.inHead (s : State) (half : Bool) (op acc : Byte) (ph : Phase) (q : List Byte) : State :=
  { s with
    halfSynced := half
    opcode := op
    acc := acc
    wdt := 0
    rxPop := true
    txWrite := false
    calls := []
    phase := ph
    rxq := q }

section
variable {s : State} (half : Bool) (op acc : Byte) (ph : Phase) (q : List Byte)

@[simp] theorem State.inHead_inHead (half' : Bool) (op' acc' : Byte) (ph' : Phase) (q' : List Byte) :
    (s.inHead half op acc ph q).inHead half' op' acc' ph' q' = s.inHead half' op' acc' ph' q' := rfl

/-- The end of the message clears what the head wrote (R184). -/
@[simp] theorem State.inHead_messageEnded :
    (s.inHead half op acc ph q).messageEnded = (s.receiving q).messageEnded := rfl

theorem State.NothingPending.inHead (hi : s.NothingPending) : (s.inHead half op acc ph q).NothingPending :=
  ⟨hi.turnaround, hi.silent, hi.noHandoff, hi.noReset⟩

end

section
variable {s : State} {b : Byte} {rest : List Byte} (hh : s.receiverHalted = false)
include hh

/-- A service step that finds a byte outside a payload consumes it; such a byte needs no place in `RXBUF` (R160). -/
theorem State.serviceRun_head (hp : s.phase = .syncing ∨ s.phase = .awaiting) (hq : s.rxq = b :: rest) :
    s.serviceRun 1 = .next ((s.receiving rest).clearStrobes.consume b) := by
  refine (State.serviceRun_one s).trans (State.serviceStep_byte s.clearStrobes b rest hh ?_ hq ?_)
  · rcases hp with hp | hp <;> rw [State.clearStrobes_phase, hp] <;> rfl
  · intro hr
    rcases hp with hp | hp <;> exact nomatch hp.symm.trans hr

/-- Such a step in `Syncing` is that phase's rule (R160). -/
theorem State.serviceRun_syncing (hp : s.phase = .syncing) (hq : s.rxq = b :: rest) :
    s.serviceRun 1 = .next ((s.inHead s.halfSynced s.opcode s.acc .syncing rest).rxSyncing b) := by
  rw [State.serviceRun_head hh (.inl hp) hq]
  simp only [State.consume, State.byteRule, State.receiving, State.clearStrobes, State.inHead, hp]

/-- Such a step in `Awaiting` is that phase's rule (R160). -/
theorem State.serviceRun_awaiting (hp : s.phase = .awaiting) (hq : s.rxq = b :: rest) :
    s.serviceRun 1 = .next ((s.inHead s.halfSynced s.opcode s.acc .awaiting rest).rxAwaiting b) := by
  rw [State.serviceRun_head hh (.inr hp) hq]
  simp only [State.consume, State.byteRule, State.receiving, State.clearStrobes, State.inHead, hp]

/-- Noise is dropped, and with it a sync byte seen before it (R163). -/
theorem State.serviceRun_noise (hp : s.phase = .syncing) (hb : b ≠ sync) (hq : s.rxq = b :: rest) :
    s.serviceRun 1 = .next (s.inHead false s.opcode s.acc .finished rest) := by
  rw [State.serviceRun_syncing hh hp hq, State.rxSyncing, if_neg hb]
  rfl

/-- The first sync byte (R161). -/
theorem State.serviceRun_syncFirst (hp : s.phase = .syncing) (hs : s.halfSynced = false) (hq : s.rxq = sync :: rest) :
    s.serviceRun 1 = .next (s.inHead true s.opcode (s.acc + sync) .syncing rest) := by
  rw [State.serviceRun_syncing hh hp hq, State.rxSyncing, if_pos rfl, if_neg (by exact Bool.eq_false_iff.mp hs)]
  rfl

/-- The second sync byte (R162). -/
theorem State.serviceRun_syncSecond (hp : s.phase = .syncing) (hs : s.halfSynced = true) (hq : s.rxq = sync :: rest) :
    s.serviceRun 1 = .next (s.inHead false s.opcode (s.acc + sync) .awaiting rest) := by
  rw [State.serviceRun_syncing hh hp hq, State.rxSyncing, if_pos rfl, if_pos (by exact hs)]
  rfl

/-- A byte that is no opcode of the variant drops the frame (R165). -/
theorem State.serviceRun_unknown (hp : s.phase = .awaiting) (hk : isKnown s.variant b = false)
    (hq : s.rxq = b :: rest) :
    s.serviceRun 1 = .next (s.inHead s.halfSynced b s.acc .finished rest) := by
  rw [State.serviceRun_awaiting hh hp hq, State.rxAwaiting, if_neg (by exact Bool.eq_false_iff.mp hk)]
  rfl

end

/-- No variant has the sync byte as an opcode (R192). -/
theorem isKnown_sync (v : Variant) : isKnown v sync = false := by
  cases v <;> rfl

/-- The frame boundary after a message is one from which the receiver runs on (R187). -/
theorem State.messageEnded_ready {s : State} (hh : s.receiverHalted = false) : s.messageEnded.ready = true := by
  obtain ⟨hf, hst⟩ := Bool.or_eq_false_iff.mp hh
  simp [State.ready, State.messageEnded, hf, hst]

/-- Settles O43: the step that drops the byte and the step that ends the message. -/
theorem noiseIsDiscarded : Obligations.NoiseIsDiscarded := by
  intro s b rest hh hp hb hq hta hlen hhandoff hreset
  have hnothing : s.NothingPending := ⟨hta, hlen, hhandoff, hreset⟩
  have hend := State.serviceRun_finished (State.serviceRun_noise hh hp hb hq) hh rfl (hnothing.inHead ..)
  rw [State.inHead_messageEnded] at hend
  exact ⟨_, hend, State.messageEnded_ready hh, rfl, rfl, rfl, rfl, hlen, rfl, rfl, rfl⟩

/-- Three stray sync bytes at a frame boundary are gone after four steps: the third is no opcode (R165, R192). -/
theorem State.serviceRun_syncTriple {s : State} {rest : List Byte} (hs : s.ready = true)
    (hq : s.rxq = sync :: sync :: sync :: rest) (hi : s.NothingPending) :
    s.serviceRun 4 = .next (s.receiving rest).messageEnded := by
  obtain ⟨hh, hp, hhalf⟩ := State.ready_running hs
  have hfirst := State.serviceRun_syncFirst hh hp hhalf hq
  have hsecond := (State.serviceRun_trans hfirst 1).trans (State.serviceRun_syncSecond hh rfl rfl rfl)
  rw [State.inHead_inHead] at hsecond
  have hthird := (State.serviceRun_trans hsecond 1).trans (State.serviceRun_unknown hh rfl (isKnown_sync _) rfl)
  rw [State.inHead_inHead] at hthird
  have hend := State.serviceRun_finished hthird hh rfl (hi.inHead ..)
  rwa [State.inHead_messageEnded] at hend

/-- Settles O44, by induction on the number of triples: each triple leads back to a frame boundary. -/
theorem straySyncTriplesAreHarmless : Obligations.StraySyncTriplesAreHarmless := by
  intro s k
  induction k generalizing s with
  | zero =>
    intro rest hs hacc _ hlen _ _ hq
    exact ⟨s, rfl, hs, hacc, hq, rfl, rfl, rfl, hlen, rfl⟩
  | succ k ih =>
    intro rest hs hacc hta hlen hhandoff hreset hq
    have htriple : s.rxq = sync :: sync :: sync :: (List.replicate (3 * k) sync ++ rest) := hq
    have hfirst := State.serviceRun_syncTriple hs htriple ⟨hta, hlen, hhandoff, hreset⟩
    obtain ⟨t, hrun, hend⟩ := ih (s.receiving (List.replicate (3 * k) sync ++ rest)).messageEnded rest
      (State.messageEnded_ready (State.ready_running hs).1) rfl hta hlen hhandoff hreset rfl
    refine ⟨t, ?_, hend⟩
    rw [Nat.mul_succ, Nat.add_comm, State.serviceRun_trans hfirst, hrun]

/-! ## Waits without end -/

/-- `TA_DRAIN` waits for completion and `TA_TX` for readiness (R304, R305). -/
theorem State.taStep_waits {s : State}
    (hw : s.taState = .drain ∧ s.ports.txComplete = false ∨ s.taState = .tx ∧ s.ports.txReady = false) :
    s.taStep = s := by
  rcases hw with ⟨hta, hc⟩ | ⟨hta, hr⟩
  · simp [State.taStep, hta, State.taDrain, hc]
  · simp [State.taStep, hta, State.taTx, hr]

/-- A tick of a block that awaits no reset is a turnaround step (R300). -/
theorem State.tick_of_noReset {s : State} (hr : s.sysResetReq = false) : s.tick = s.taStep :=
  if_neg (Bool.eq_false_iff.mp hr)

/-- Where a tick does nothing, no number of ticks does more than lower the strobes. -/
theorem State.tickRun_stands {s : State} (h : s.clearStrobes.tick = s.clearStrobes) (k : Nat) :
    s.tickRun (k + 1) = (s.clearStrobes, []) := by
  have hone : s.tickRun 1 = (s.clearStrobes, []) := State.tickRun_one h rfl
  induction k with
  | zero => exact hone
  | succ k ih =>
    rw [Nat.add_comm (k + 1) 1]
    exact State.tickRun_trans hone ((State.tickRun_congr rfl k).trans ih)

/-- Where a service step does nothing, no number of them does more than lower the strobes. -/
theorem State.serviceRun_stands {s : State} (h : s.clearStrobes.serviceStep = .next s.clearStrobes) (k : Nat) :
    s.serviceRun (k + 1) = .next s.clearStrobes := by
  rw [State.serviceRun_succ h]
  induction k with
  | zero => rfl
  | succ k ih => rw [State.serviceRun_succ (s := s.clearStrobes) h, ih]

/-- Settles O47: the controller's step waits, and `Finished` holds for it. -/
theorem drainHangsWithoutCompletion : Obligations.DrainHangsWithoutCompletion := by
  intro s k hf hst hr hp hw
  have htick : s.clearStrobes.tick = s.clearStrobes :=
    (State.tick_of_noReset (s := s.clearStrobes) hr).trans (State.taStep_waits hw)
  have hta : s.taState ≠ .rx := by
    rcases hw with ⟨hta, -⟩ | ⟨hta, -⟩ <;> rw [hta] <;> decide
  have hservice : s.clearStrobes.serviceStep = .next s.clearStrobes := by
    rw [State.serviceStep_finished (s := s.clearStrobes) (Bool.or_eq_false_iff.mpr ⟨hf, hst⟩) hp,
      State.finishedPhase_flushing (s := s.clearStrobes) hta]
  exact ⟨State.tickRun_stands htick k, State.serviceRun_stands hservice k⟩

/-! ## The event of a step -/

/-- A tick of a block that awaits its reset counts, until the count is `T_RESET` (R353; log 18). -/
theorem State.tick_counts {s : State} (hr : s.sysResetReq = true) (hlt : s.resetTicks + 1 < s.par.tReset) :
    s.tick = { s with resetTicks := s.resetTicks + 1 }.taStep := by
  rw [State.tick, if_pos hr, if_neg (Nat.not_le.mpr hlt)]

/-- The tick that completes the count resets the block (R353; log 18). -/
theorem State.tick_resets {s : State} (hr : s.sysResetReq = true) (hle : s.par.tReset ≤ s.resetTicks + 1) :
    s.tick = s.resetSequence := by
  rw [State.tick, if_pos hr, if_pos hle]

/-- A bus byte is delivered while read is enabled, and lost otherwise (R56). -/
theorem State.deliver_reading {s : State} (hre : s.re = true) (x : Byte) :
    s.deliver x = { s with rxq := s.rxq ++ [x] } :=
  if_pos hre

theorem State.deliver_muted {s : State} (hre : s.re = false) (x : Byte) : s.deliver x = s :=
  if_neg (Bool.eq_false_iff.mp hre)

/-- Settles O6: the step of a scripted input is its event's, and each event has its rule. -/
theorem eventsMoveTheirAgents : Obligations.EventsMoveTheirAgents := by
  intro s p more e hi b
  have hstep : step s = b.onEvent e := step_of_inputs hi
  refine ⟨?_, ?_, ?_, ?_, ?_, ?_⟩
  · rintro rfl
    exact hstep
  · rintro rfl hr
    exact hstep.trans (congrArg Host.Outcome.next (State.tick_of_noReset (s := b) hr))
  · rintro rfl hr hlt
    exact hstep.trans (congrArg Host.Outcome.next (State.tick_counts (s := b) hr hlt))
  · rintro rfl hr hle
    exact hstep.trans (congrArg Host.Outcome.next (State.tick_resets (s := b) hr hle))
  · rintro x rfl hre
    exact hstep.trans (congrArg Host.Outcome.next (State.deliver_reading (s := b) hre x))
  · rintro x rfl hre
    exact hstep.trans (congrArg Host.Outcome.next (State.deliver_muted (s := b) hre x))

/-- A burst finds no frame to fetch for a receiver that is halted or stopped (R160; log 2). -/
theorem State.burst_halted {s : State} (hh : s.receiverHalted = true) : s.burst = .next s := by
  have hready : s.ready = false := by
    rcases Bool.or_eq_true_iff.mp hh with h | h <;> simp [State.ready, h]
  simp only [State.burst, State.fetch, hready, Bool.false_eq_true, if_false]
  exact State.serviceStep_halted hh

/-- The turnaround of a halted block does not move (R300, R386). -/
theorem State.taStep_halted {s : State} (hf : s.fatal = true) : s.taStep = s :=
  if_pos hf

/-- Settles O48: a halt stops both agents, a stop the receiver alone. -/
theorem fatalBlockStands : Obligations.FatalBlockStands := by
  intro s p more e hi b
  have hstep : step s = b.onEvent e := step_of_inputs hi
  refine ⟨fun hhalt he => ?_, fun hf hr he => ?_, fun _ hr he => ?_⟩
  · have hh : b.receiverHalted = true := Bool.or_eq_true_iff.mpr hhalt
    rcases he with rfl | rfl
    · exact hstep.trans (State.serviceStep_halted hh)
    · exact hstep.trans (State.burst_halted hh)
  · subst he
    exact hstep.trans (congrArg Host.Outcome.next
      ((State.tick_of_noReset (s := b) hr).trans (State.taStep_halted (s := b) hf)))
  · subst he
    exact hstep.trans (congrArg Host.Outcome.next (State.tick_of_noReset (s := b) hr))

end Sys2Proof.Machine

/-! # The statements of 41_commands.md: the commands of the runtime variant and their responses -/

namespace Sys2Proof.Machine

/-! ## A valid frame is due for dispatch -/

/-- A valid own-addressed frame received whole and due for dispatch, the strobes low (R187). -/
def State.due (s : State) (op a : Byte) (p : List Byte) : State :=
  { s.framed op a p with
    acc := 0
    phase := .pending }

/-- The payload of a frame due for dispatch is read back from `RXBUF` (R171). -/
theorem State.rxByte_due (s : State) (op a : Byte) (p : List Byte) {n : Nat} (h : n < p.length) :
    (s.due op a p).rxByte n = p[n] :=
  s.rxByte_of_filled p h _ rfl

/-- The command byte of a self-describing frame is the second byte of its payload (R123). -/
theorem State.requestCommand_due (s : State) (op a cmd : Byte) (p : List Byte) :
    (s.due op a (selfPayload cmd p)).requestCommand = cmd :=
  s.rxByte_due op a (selfPayload cmd p) (by simp [selfPayload])

/-- A frame received into `Pending` in the runtime variant is dispatched by its opcode (R181). -/
theorem exec_of_due {i : Instr} {s : State} {op a : Byte} {p : List Byte} (hs : s.ready = true)
    (hv : s.variant = .runtime) (hw : i.wellFormed = true)
    (hreceive : s.receive (encode i) = { s.due op a p with rxPop := true }) :
    exec i s = .next ((s.due op a p).dispatchRuntime op).endDispatch := by
  have hrun : (s.receive (encode i)).receiverHalted = false := by
    rw [hreceive]
    exact (State.ready_running hs).1
  have hpending : (s.receive (encode i)).phase = .pending := by
    rw [hreceive]
    rfl
  rw [exec_dispatchedAs hs hw hrun hpending, hreceive]
  exact State.pendingPhase_runtime (s := s.due op a p) hv

/-- A valid own-addressed command of fixed length is dispatched; for `SETID` the identity is in range (R187). -/
theorem exec_fixed_of_valid {i : Instr} {s : State} {op a c : Byte} {p : List Byte}
    (hi : i.fixedCommand = some (op, a, p, c)) (hs : s.ready = true) (hv : s.variant = .runtime) (hacc : s.acc = 0)
    (ha : a = s.ownByte) (hvalid : checksumValid i = true) (hid : op ≠ opSetid ∨ ∀ v ∈ p, v.toNat < 128) :
    exec i s = .next ((s.due op a p).dispatchRuntime op).endDispatch := by
  obtain ⟨henc, hcmd, hraw, hlen⟩ := Instr.of_fixedCommand hi
  have hself : i.selfFrame = none := by
    cases i with
    | raw | bS | bI | bW | bR => cases hi
    | _ => rfl
  have hsum : sumBytes (sync :: sync :: op :: a :: (p ++ [c])) = 0 := henc ▸ beq_iff_eq.mp hvalid
  refine exec_of_due hs hv (Instr.of_selfFrame_none hself .runtime).1 ?_
  rw [henc]
  refine State.receive_own_fixed s op a c p hs (hv ▸ isKnown_runtime hcmd) hcmd hraw ha hlen hacc hsum ?_
  rintro - hop v rfl
  exact hid.resolve_left (not_not_intro hop) v (List.mem_singleton_self v)

/-- A valid own-addressed `RAW` that fits the receive buffer is dispatched (R187, R234). -/
theorem exec_raw_of_valid {s : State} {a cmd c : Byte} {p : List Byte} (hs : s.ready = true)
    (hv : s.variant = .runtime) (hacc : s.acc = 0) (ha : a = s.ownByte) (hl : p.length ≤ 255)
    (hfit : p.length + 2 ≤ s.par.rxBufCap) (hvalid : checksumValid (.raw a cmd p c) = true) :
    exec (.raw a cmd p c) s = .next (s.due opRaw a (selfPayload cmd p)).rawBody.endDispatch := by
  obtain ⟨-, -, -, -, -, -, -, -, hdispatch⟩ := (s.due opRaw a (selfPayload cmd p)).dispatchRuntime_eq
  rw [← hdispatch]
  exact exec_of_due hs hv (decide_eq_true hl)
    (State.receive_own_self s a cmd c p hs ha hl hfit hacc (beq_iff_eq.mp hvalid))

/-! ## An identity out of range -/

/-- The accumulator at the checksum byte of an own-addressed frame has all bytes before it (R41, R178). -/
theorem State.awaitingChecksum_sum {s : State} {op a c : Byte} {p : List Byte} (hacc : s.acc = 0) :
    (s.awaitingChecksum op a p).acc + c = sumBytes (sync :: sync :: op :: a :: (p ++ [c])) := by
  refine Eq.trans ?_ (sumBytes_frame (op :: a :: p) c).symm
  simp only [State.awaitingChecksum, hacc, sumBytes]
  abel

/-- Settles O26: the range is tested once the sum is found right. -/
theorem identityOutOfRangeIsCounted : Obligations.IdentityOutOfRangeIsCounted := by
  intro s a v c hs hv hacc ha hrange hvalid
  have hrun : s.receiverHalted = false := (State.ready_running hs).1
  have hfeed : s.clearStrobes.feed (encode (.setid a v c)) = (s.awaitingChecksum opSetid a [v]).feed [c] :=
    State.feed_own_fixed s.clearStrobes opSetid a [v] [c] hs (hv ▸ isKnown_runtime rfl) rfl (by decide) ha rfl
  have hread : (s.awaitingChecksum opSetid a [v]).rxByte 0 = v := s.rxByte_of_filled [v] Nat.one_pos _ rfl
  have hsum : (s.awaitingChecksum opSetid a [v]).acc + c = 0 :=
    (State.awaitingChecksum_sum hacc).trans (beq_iff_eq.mp hvalid)
  rw [State.feed_checksum_idRange (s.awaitingChecksum opSetid a [v]) c hrun rfl hsum
    ⟨hv, rfl, by rw [hread]; exact hrange⟩] at hfeed
  exact exec_of_error hs (State.receive_of_feed hfeed) hrun rfl

/-! ## Commands without a response -/

/-- A block that has not halted ends its dispatch in `Finished` (R181). -/
theorem State.endDispatch_running {r : State} (hf : r.fatal = false) :
    r.endDispatch = { r with phase := .finished } :=
  if_neg (Bool.eq_false_iff.mp hf)

theorem State.ready_fatal {s : State} (hs : s.ready = true) : s.fatal = false :=
  (Bool.or_eq_false_iff.mp (State.ready_running hs).1).1

/-- Settles O12: the limit is read from `RXBUF`. -/
theorem setlimitHasNoResponse : Obligations.SetlimitHasNoResponse := by
  rintro s a v c ⟨hs, hv, hacc, -⟩ ha hvalid
  have hf := State.ready_fatal hs
  obtain ⟨-, -, -, -, hdispatch, -⟩ := (s.due opSetlimit a [v]).dispatchRuntime_eq
  have hbody : (s.due opSetlimit a [v]).setlimitBody = (s.due opSetlimit a [v]).call (.setPowerLimit v) := by
    rw [State.setlimitBody, State.rxByte_due s _ _ [v] Nat.one_pos]
    rfl
  rw [exec_fixed_of_valid rfl hs hv hacc ha hvalid (.inl (by decide)), hdispatch, hbody,
    State.endDispatch_running (by exact hf)]
  rfl

/-- Settles O18: `RAW` compares the command byte that it reads from `RXBUF`. -/
theorem rawOtherIsIgnored : Obligations.RawOtherIsIgnored := by
  rintro s a cmd c payload ⟨hs, hv, hacc, -⟩ ha hcmd hl hfit hvalid
  have hf := State.ready_fatal hs
  rw [exec_raw_of_valid hs hv hacc ha hl hfit hvalid, State.rawBody, State.requestCommand_due, if_neg hcmd,
    State.endDispatch_running (by exact hf)]
  rfl

/-! ## The identity store -/

/-- The identity byte just written reads as what the store keeps of it (R92, R228). -/
theorem State.nvmIdentity_nvmWrite {s : State} (hwf : s.memoriesWf) (v : Byte) :
    (s.nvmWrite s.par.idNvmAddr v).nvmIdentity = s.ports.nvmFault.getD v := by
  obtain ⟨-, -, hnvm, -⟩ := hwf
  exact congrArg (·.getD s.par.nvmInitId) (s.load_store_same .nvm _ _ hnvm)

/-- The configuration byte just written reads as what the store keeps of it (R92, R230). -/
theorem State.nvmConfig_nvmWrite {s : State} (hwf : s.memoriesWf) (v : Byte) :
    (s.nvmWrite (s.par.idNvmAddr + 1) v).nvmConfig = s.ports.nvmFault.getD v := by
  obtain ⟨-, -, hnvm, -⟩ := hwf
  exact congrArg (·.getD s.par.nvmInitCfg) (s.load_store_same .nvm _ _ hnvm)

/-- `SETID` up to its acknowledgement, after which the identity is what the store keeps (R228, R229). -/
theorem State.identityStored_eq {r : State} (hwf : r.memoriesWf) :
    r.identityStored = { r with
      nvm := Memory.write (unlisted r.par .nvm) r.nvm r.par.idNvmAddr (r.ports.nvmFault.getD (0x80 ||| r.rxByte 0))
      ownId := identityOf r.par (r.ports.nvmFault.getD (0x80 ||| r.rxByte 0)) } := by
  rw [State.identityStored, State.loadIdentity, State.nvmIdentity_nvmWrite hwf]
  rfl

/-- After `CONFIG` the configuration byte is what the store keeps (R230, R231). -/
theorem State.configBody_eq {r : State} (hwf : r.memoriesWf) :
    r.configBody = { r with
      nvm := Memory.write (unlisted r.par .nvm) r.nvm (r.par.idNvmAddr + 1) (r.ports.nvmFault.getD (r.rxByte 0))
      cfg := r.ports.nvmFault.getD (r.rxByte 0) } := by
  rw [State.configBody, State.loadConfig, State.nvmConfig_nvmWrite hwf]
  rfl

/-- A payload received leaves the memories in canonical form (R171). -/
theorem State.due_memoriesWf {s : State} (hwf : s.memoriesWf) (op a : Byte) (p : List Byte) :
    (s.due op a p).memoriesWf := by
  obtain ⟨hrx, htx, hnvm, hflash⟩ := hwf
  exact ⟨Memory.wf_writeBytes hrx 0 p, htx, hnvm, hflash⟩

/-- Settles O15: the re-read is that of the byte just written. -/
theorem configStoresAndRereads : Obligations.ConfigStoresAndRereads := by
  rintro s a f c ⟨hs, hv, hacc, -⟩ hwf ha hvalid
  have hf := State.ready_fatal hs
  obtain ⟨-, -, -, -, -, -, hdispatch, -⟩ := (s.due opConfig a [f]).dispatchRuntime_eq
  rw [exec_fixed_of_valid rfl hs hv hacc ha hvalid (.inl (by decide)), hdispatch,
    State.configBody_eq (State.due_memoriesWf hwf ..), State.rxByte_due s _ _ [f] Nat.one_pos,
    State.endDispatch_running (by exact hf)]
  rfl

/-! ## Commands with a response -/

/-- A dispatch that can queue any response: the block runs, nothing is queued, every response fits (R10, R238). -/
abbrev State.canReply (s : State) : Prop := s.fatal = false ∧ s.txLen = 2 ∧ 14 ≤ s.par.txBufCap

theorem State.canReply_of_atRest {s : State} {v : Variant} (h : s.atRest v) : s.canReply := by
  obtain ⟨hs, -, -, hlen, hcap⟩ := h
  exact ⟨State.ready_fatal hs, hlen, hcap⟩

/-- A response of at most twelve bytes is queued whole (R238, R270). -/
theorem State.txAddBytes_canReply {r : State} (h : r.canReply) {bytes : List Byte} (hb : bytes.length ≤ 12) :
    r.txAddBytes bytes = { r with
      txbuf := r.txAppended bytes
      txLen := 2 + BitVec.ofNat 9 bytes.length } := by
  obtain ⟨hf, hlen, hcap⟩ := h
  have htwo : r.txLen.toNat = 2 := by
    rw [hlen]
    rfl
  rw [State.txAddBytes_of_room r bytes hf (by omega) (by omega), hlen]

/-- A response that ends its dispatch (R181, R270). -/
theorem State.txAddBytes_endDispatch {r : State} (h : r.canReply) {bytes : List Byte} (hb : bytes.length ≤ 12) :
    (r.txAddBytes bytes).endDispatch = { r with
      txbuf := r.txAppended bytes
      txLen := 2 + BitVec.ofNat 9 bytes.length
      phase := .finished } := by
  rw [State.txAddBytes_canReply h hb, State.endDispatch_running (by exact h.1)]

/-- Settles O11: `PING` queues two bytes. -/
theorem pingAcknowledges : Obligations.PingAcknowledges := by
  intro s a c hrest ha hvalid
  have hreply := State.canReply_of_atRest hrest
  obtain ⟨hs, hv, hacc, -⟩ := hrest
  obtain ⟨-, -, -, hdispatch, -⟩ := (s.due opPing a []).dispatchRuntime_eq
  rw [exec_fixed_of_valid rfl hs hv hacc ha hvalid (.inl (by decide)), hdispatch, State.pingBody,
    State.txAddBytes_endDispatch (by exact hreply) (by simp)]
  subst ha
  rfl

/-- Settles O16: the values are read before the restart, which does not change the pins. -/
theorem sensorRepliesAndRestarts : Obligations.SensorRepliesAndRestarts := by
  intro s a v c hrest ha hvalid
  have hreply := State.canReply_of_atRest hrest
  obtain ⟨hs, hv, hacc, -⟩ := hrest
  obtain ⟨-, -, -, -, -, -, -, hdispatch, -⟩ := (s.due opSensor a [v]).dispatchRuntime_eq
  rw [exec_fixed_of_valid rfl hs hv hacc ha hvalid (.inl (by decide)), hdispatch, State.sensorBody,
    State.txAddBytes_endDispatch (by exact hreply) (by simp [State.sensorBytes, wordBytes])]
  subst ha
  rfl

/-- Settles O13: the acknowledgement follows the re-read, so it carries the identity that the store keeps. -/
theorem setidStoresAndRereads : Obligations.SetidStoresAndRereads := by
  intro s a v c hrest hwf ha hrange hvalid
  have hreply := State.canReply_of_atRest hrest
  obtain ⟨hs, hv, hacc, -⟩ := hrest
  obtain ⟨-, -, -, -, -, hdispatch, -⟩ := (s.due opSetid a [v]).dispatchRuntime_eq
  have hbody : (s.due opSetid a [v]).setidBody = (s.due opSetid a [v]).identityStored.setidReply := rfl
  rw [exec_fixed_of_valid rfl hs hv hacc ha hvalid (.inr (by simpa using hrange)), hdispatch, hbody,
    State.identityStored_eq (State.due_memoriesWf hwf ..), State.rxByte_due s _ _ [v] Nat.one_pos,
    State.setidReply, State.txAddBytes_endDispatch (by exact hreply) (by simp)]
  rfl

/-- An identity byte written by `SETID` holds the identity (R90, R226). -/
theorem identityOf_marked (par : Params) {v : Byte} (h : v.toNat < 128) :
    (identityOf par (0x80 ||| v)).zeroExtend 8 = v := by
  have hmarked : (0x80 ||| v).getLsbD 7 = true := by simp
  have hbits : (0x80 ||| v.toNat) % 2 ^ 7 = v.toNat := by
    rw [Nat.or_mod_two_pow, Nat.mod_eq_of_lt h]
    exact Nat.zero_or _
  rw [identityOf, if_pos hmarked]
  apply BitVec.eq_of_toNat_eq
  rw [BitVec.zeroExtend, BitVec.toNat_setWidth_of_le (by decide), BitVec.extractLsb'_toNat, Nat.shiftRight_zero,
    BitVec.toNat_or]
  exact hbits

/-- Settles O14: with a working store the byte kept is the byte written. -/
theorem setidTakesEffect : Obligations.SetidTakesEffect := by
  intro s t a v c hrest hwf ha hrange hvalid hworks hexec
  rw [setidStoresAndRereads s a v c hrest hwf ha hrange hvalid, hworks, Option.getD_none] at hexec
  obtain rfl := Host.Outcome.next.inj hexec
  have hwrite : Memory.write (unlisted s.par .nvm) s.nvm s.par.idNvmAddr (0x80 ||| v) =
      (s.nvmWrite s.par.idNvmAddr (0x80 ||| v)).nvm := by
    rw [State.nvmWrite, hworks]
    rfl
  rw [hwrite]
  refine ⟨identityOf_marked s.par hrange, ?_, ?_⟩
  · have hread := State.nvmIdentity_nvmWrite hwf (0x80 ||| v)
    rw [hworks] at hread
    exact hread
  · exact s.nvmConfig_nvmWrite_identity (0x80 ||| v)

/-- Settles O17: the transfer is made pending once the acknowledgement is queued. -/
theorem rawHandshakeAcknowledges : Obligations.RawHandshakeAcknowledges := by
  intro s a c payload hrest ha hl hfit hvalid
  have hreply := State.canReply_of_atRest hrest
  obtain ⟨hs, hv, hacc, -⟩ := hrest
  have hf := State.ready_fatal hs
  rw [exec_raw_of_valid hs hv hacc ha hl hfit hvalid, State.rawBody, if_pos (State.requestCommand_due ..),
    State.handshakeBody, State.txAddBytes_canReply (by exact hreply) (by simp), State.andThen,
    if_neg (by exact Bool.eq_false_iff.mp hf), State.endDispatch_running (by exact hf)]
  subst ha
  rfl

/-! ## Telemetry -/

/-- The frame due for dispatch with the strobes that precede its telemetry (R221, R222, R223). -/
def State.dueTelemetry (s : State) (op a : Byte) (p : List Byte) (calls : List Call) : State :=
  { s.due op a p with calls := calls }

theorem State.dispatchRuntime_reqdata (s : State) (a : Byte) :
    (s.due opReqdata a []).dispatchRuntime opReqdata =
      (s.dueTelemetry opReqdata a [] [.motorDisable, .setTargetPower 0]).sendTelemetry := by
  obtain ⟨hdispatch, -⟩ := (s.due opReqdata a []).dispatchRuntime_eq
  exact hdispatch

/-- The direction is the opcode's low bit, the power the payload (R222, R223). -/
theorem State.setVoltageBody_due (s : State) (op a v : Byte) :
    (s.due op a [v]).setVoltageBody =
      (s.dueTelemetry op a [v]
        [.setTargetDirection (op.getLsbD 0), .setTargetPower v, .motorEnable]).sendTelemetry := by
  rw [State.setVoltageBody, State.rxByte_due s _ _ [v] Nat.one_pos]
  rfl

theorem State.dispatchRuntime_setv0 (s : State) (a v : Byte) :
    (s.due opSetv0 a [v]).dispatchRuntime opSetv0 =
      (s.dueTelemetry opSetv0 a [v] [.setTargetDirection false, .setTargetPower v, .motorEnable]).sendTelemetry := by
  obtain ⟨-, hdispatch, -⟩ := (s.due opSetv0 a [v]).dispatchRuntime_eq
  exact hdispatch.trans (s.setVoltageBody_due opSetv0 a v)

theorem State.dispatchRuntime_setv1 (s : State) (a v : Byte) :
    (s.due opSetv1 a [v]).dispatchRuntime opSetv1 =
      (s.dueTelemetry opSetv1 a [v] [.setTargetDirection true, .setTargetPower v, .motorEnable]).sendTelemetry := by
  obtain ⟨-, -, hdispatch, -⟩ := (s.due opSetv1 a [v]).dispatchRuntime_eq
  exact hdispatch.trans (s.setVoltageBody_due opSetv1 a v)

/-- A response that does not fit fills the buffer, and its next byte halts the block (R270, R390). -/
theorem State.txAddBytes_of_overflow (s : State) (bytes : List Byte) (hf : s.fatal = false)
    (hle : s.txLen.toNat ≤ s.par.txBufCap) (hlt : s.par.txBufCap < s.txLen.toNat + bytes.length)
    (hw : s.par.txBufCap < 512) :
    ∃ m l, s.txAddBytes bytes = State.raiseFatal { s with txbuf := m, txLen := l } .txOverflow ∧
      l.toNat = s.par.txBufCap := by
  induction bytes generalizing s with
  | nil => exact absurd hle (Nat.not_le.mpr hlt)
  | cons b bs ih =>
    rw [State.txAddBytes]
    rcases Nat.eq_or_lt_of_le hle with hfull | hroom
    · rw [State.txAddByte_of_full s b hfull.ge, if_pos (by rfl)]
      exact ⟨s.txbuf, s.txLen, rfl, hfull⟩
    · have hnext : (s.txLen + 1).toNat = s.txLen.toNat + 1 := by
        rw [BitVec.toNat_add]
        simp
        omega
      rw [State.txAddByte_of_room s b hroom, if_neg (by exact Bool.eq_false_iff.mp hf)]
      rw [List.length_cons] at hlt
      exact ih _ hf (hnext.trans_le hroom) (hlt.trans_eq (by rw [hnext, Nat.add_assoc, Nat.add_comm 1])) hw

section
variable {i : Instr} {s : State} {op a c : Byte} {p : List Byte} {calls : List Call}
  (hi : i.fixedCommand = some (op, a, p, c)) (hid : op ≠ opSetid)
  (hbody : (s.due op a p).dispatchRuntime op = (s.dueTelemetry op a p calls).sendTelemetry)
include hi hid hbody

/-- A command that ends with its telemetry queues it (R237). -/
theorem exec_telemetry (hrest : s.atRest .runtime) (ha : a = s.ownByte) (hvalid : checksumValid i = true) :
    exec i s = .next { s.framed op a p with
      acc := 0
      calls := calls
      txbuf := s.txAppended ([opDataR, a] ++ s.telemetryBytes)
      txLen := 14 } := by
  have hreply := State.canReply_of_atRest hrest
  obtain ⟨hs, hv, hacc, -⟩ := hrest
  rw [exec_fixed_of_valid hi hs hv hacc ha hvalid (.inl hid), hbody, State.sendTelemetry,
    State.txAddBytes_endDispatch (by exact hreply) (by simp [State.telemetryBytes, wordBytes])]
  subst ha
  rfl

/-- In a response buffer too small for it the telemetry halts the block (R237, R270). -/
theorem exec_telemetry_overflow (hs : s.ready = true) (hv : s.variant = .runtime) (hacc : s.acc = 0)
    (hlen : s.txLen = 2) (ha : a = s.ownByte) (hle : 2 ≤ s.par.txBufCap) (hlt : s.par.txBufCap < 14)
    (hvalid : checksumValid i = true) : ∃ t, exec i s = .next t ∧ s.overflowed t calls := by
  refine ⟨_, (exec_fixed_of_valid hi hs hv hacc ha hvalid (.inl hid)).trans (by rw [hbody]), ?_⟩
  have htwo : s.txLen.toNat = 2 := by
    rw [hlen]
    rfl
  have hf := State.ready_fatal hs
  obtain ⟨m, l, hfull, hl⟩ := State.txAddBytes_of_overflow (s.dueTelemetry op a p calls)
    ([opDataR, s.ownByte] ++ s.telemetryBytes) hf (htwo.trans_le hle) (hlt.trans_eq (congrArg (· + 12) htwo.symm))
    (hlt.trans (by decide))
  have hsend : (s.dueTelemetry op a p calls).sendTelemetry =
      State.raiseFatal { s.dueTelemetry op a p calls with txbuf := m, txLen := l } .txOverflow := hfull
  rw [hsend]
  exact ⟨rfl, rfl, rfl, rfl, rfl, rfl, rfl, hl, rfl⟩

end

/-- Settles O9: two strobes, then the telemetry. -/
theorem reqdataRepliesWithTelemetry : Obligations.ReqdataRepliesWithTelemetry := fun s a _ =>
  exec_telemetry rfl (by decide) (s.dispatchRuntime_reqdata a)

/-- Settles O10: three strobes, then the telemetry; the two opcodes differ in the direction. -/
theorem setVoltageDrivesAndReplies : Obligations.SetVoltageDrivesAndReplies := fun s a p _ hrest ha =>
  ⟨exec_telemetry rfl (by decide) (s.dispatchRuntime_setv0 a p) hrest ha,
    exec_telemetry rfl (by decide) (s.dispatchRuntime_setv1 a p) hrest ha⟩

/-- Settles O50: the telemetry is the last part of each of the three commands. -/
theorem telemetryOverflowHalts : Obligations.TelemetryOverflowHalts := fun s a p _ hs hv hacc hlen ha hle hlt =>
  ⟨exec_telemetry_overflow rfl (by decide) (s.dispatchRuntime_reqdata a) hs hv hacc hlen ha hle hlt,
    exec_telemetry_overflow rfl (by decide) (s.dispatchRuntime_setv0 a p) hs hv hacc hlen ha hle hlt,
    exec_telemetry_overflow rfl (by decide) (s.dispatchRuntime_setv1 a p) hs hv hacc hlen ha hle hlt⟩

/-! ## The response queued is a response frame -/

/-- A response appended to the empty one stands behind the sync bytes (R84, R270). -/
theorem State.txQueued_of_appended {s t : State} {bytes : List Byte} (hwf : s.memoriesWf) (hseeded : s.txSeeded)
    (hlen : s.txLen = 2) (hpar : t.par = s.par) (hbuf : t.txbuf = s.txAppended bytes)
    (htxLen : t.txLen.toNat = 2 + bytes.length) : t.txQueued = sync :: sync :: bytes := by
  obtain ⟨-, hwfTx, -⟩ := hwf
  obtain ⟨hseeded0, hseeded1⟩ := hseeded
  have hload (n : Nat) : t.load .txbuf n =
      Memory.read (unlisted s.par .txbuf) (Memory.writeBytes (unlisted s.par .txbuf) s.txbuf 2 bytes) n := by
    simp only [State.load, State.memory, hbuf, hpar, State.txAppended, hlen]
    rfl
  have hsync {n : Nat} (hn : n < 2) : t.load .txbuf n = s.load .txbuf n :=
    (hload n).trans (Memory.read_writeBytes_outside s.txbuf bytes (.inl hn))
  have hbyte {n : Nat} (hn : n < bytes.length) : t.txByte (2 + n) = bytes[n] := by
    rw [State.txByte, hload, Memory.read_writeBytes_inside hwfTx 2 bytes hn, Option.getD_some]
  have hsync0 : t.txByte 0 = sync := by rw [State.txByte, hsync (by decide), hseeded0, Option.getD_some]
  have hsync1 : t.txByte 1 = sync := by rw [State.txByte, hsync (by decide), hseeded1, Option.getD_some]
  have hcount : t.txQueued.length = bytes.length + 2 := by
    rw [State.txQueued, List.length_map, List.length_range, htxLen, Nat.add_comm]
  refine List.ext_getElem hcount fun n hn hn' => ?_
  have hscan : t.txQueued[n] = t.txByte n := by simp [State.txQueued]
  rw [hscan]
  match n with
  | 0 => exact hsync0
  | 1 => exact hsync1
  | n + 2 =>
    exact (congrArg t.txByte (Nat.add_comm n 2)).trans (hbyte (Nat.lt_of_add_lt_add_right hn'))

/-- The generated checksum makes a response sum to 0 (R272, R274). -/
theorem sumBytes_checksumOf (bytes : List Byte) : sumBytes (bytes ++ [checksumOf bytes]) = 0 := by
  rw [sumBytes_append, checksumOf]
  simp [sumBytes]

/-- A dispatch that appends a frame's bytes, up to the checksum, to the empty response queues that frame. -/
theorem State.queues_of_appended {s t : State} {r : Byte → Instr} {bytes : List Byte} (hwf : s.memoriesWf)
    (hseeded : s.txSeeded) (hlen : s.txLen = 2) (hpar : t.par = s.par) (hbuf : t.txbuf = s.txAppended bytes)
    (htxLen : t.txLen.toNat = 2 + bytes.length) (hr : ∀ chk, encode (r chk) = sync :: sync :: bytes ++ [chk]) :
    t.queues r := by
  have hq := State.txQueued_of_appended hwf hseeded hlen hpar hbuf htxLen
  refine ⟨checksumOf t.txQueued, ?_, ?_⟩
  · rw [hr, hq]
  · rw [hr, ← hq, sumBytes_checksumOf]

/-- A boot dispatch that has a next state ends with its one answer (R345, R346). -/
theorem State.dispatchBoot_answers {s t : State} {c : Byte} (h : s.dispatchBoot c = .next t) :
    ∃ r ok, s.Prepares r ∧ t = (r.answer ok).endDispatch := by
  rcases s.dispatchBoot_ends c with ⟨ok, hd⟩ | hd | ⟨-, -, -, hd⟩ | ⟨-, hd⟩ | ⟨-, -, hd⟩
  · exact ⟨s, ok, .refl s, Host.Outcome.next.inj (h.symm.trans hd)⟩
  · exact ⟨{ s with resetPending := true }, true, ⟨rfl, id⟩, Host.Outcome.next.inj (h.symm.trans hd)⟩
  · exact ⟨s.pageProgrammed, true, s.pageProgrammed_prepares, Host.Outcome.next.inj (h.symm.trans hd)⟩
  · exact nomatch hd.symm.trans h
  · exact nomatch hd.symm.trans h

/-- A valid own-addressed frame in the boot variant is dispatched by its command byte (R345). -/
theorem exec_boot_of_valid {i : Instr} {s : State} {a cmd c : Byte} {p : List Byte} (hrest : s.atRest .boot)
    (ha : a = s.ownByte) (hw : i.wellFormed = true) (hi : i.selfFrame = some (a, cmd, p, c))
    (hfit : p.length + 2 ≤ s.par.rxBufCap) (hvalid : checksumValid i = true) :
    exec i s = (s.requested a cmd p).dispatchBoot cmd := by
  have henc : encode i = encodeSelf a cmd p c := Instr.encode_of_selfFrame hi
  have hl : p.length ≤ 255 := (Instr.wellFormed_of_selfFrame hi).mp hw
  obtain ⟨hreceive, hrun, hpending⟩ := State.receive_requested hrest ha hl hfit (henc ▸ beq_iff_eq.mp hvalid)
  obtain ⟨hs, hv, -⟩ := hrest
  rw [← henc] at hreceive hrun hpending
  rw [exec_dispatchedAs hs hw hrun hpending, hreceive]
  refine (State.pendingPhase_boot (s := s.requested a cmd p) hv rfl).trans ?_
  exact congrArg _ (s.requestCommand_due opRaw a cmd p)

/-- The answer to a valid own-addressed request in the boot variant is the response frame `'Y'` or `'N'` (R346). -/
theorem exec_boot_queues {i : Instr} {s t : State} {a cmd c : Byte} {p : List Byte} (hrest : s.atRest .boot)
    (hwf : s.memoriesWf) (hseeded : s.txSeeded) (ha : a = s.ownByte) (hw : i.wellFormed = true)
    (hi : i.selfFrame = some (a, cmd, p, c)) (hfit : p.length + 2 ≤ s.par.rxBufCap) (hvalid : checksumValid i = true)
    (hexec : exec i s = .next t) : t.queues .bY ∨ t.queues .bN := by
  rw [exec_boot_of_valid hrest ha hw hi hfit hvalid] at hexec
  obtain ⟨r, ok, hprep, rfl⟩ := State.dispatchBoot_answers hexec
  obtain ⟨hf, hlen, hcap⟩ := State.canReply_of_atRest hrest
  have hkept := hprep.kept
  simp only [State.responder, Prod.mk.injEq] at hkept
  obtain ⟨hpar, hfatal, -, -, htxLen, -, htxbuf⟩ := hkept
  have hbuf (bytes : List Byte) : r.txAppended bytes = s.txAppended bytes := by
    simp only [State.txAppended, hpar, htxLen, htxbuf]
    rfl
  rw [State.answer_endDispatch ok (hfatal.trans hf) (htxLen.trans hlen) (hpar ▸ hcap)]
  cases ok with
  | true => exact .inl (State.queues_of_appended hwf hseeded hlen hpar (hbuf [statusY]) rfl fun _ => rfl)
  | false => exact .inr (State.queues_of_appended hwf hseeded hlen hpar (hbuf [statusN]) rfl fun _ => rfl)

/-- Settles O46: the runtime commands by what each queues, the boot requests by the answer that ends their dispatch. -/
theorem repliesAreResponseFrames : Obligations.RepliesAreResponseFrames := by
  constructor
  · intro s t i a c hrest hwf hseeded ha hvalid hexec
    obtain ⟨-, hlen, -⟩ := State.canReply_of_atRest hrest
    have hqueues {u : State} {r : Byte → Instr} {bytes : List Byte} (hu : exec i s = .next u) (hpar : u.par = s.par)
        (hbuf : u.txbuf = s.txAppended bytes) (htxLen : u.txLen.toNat = 2 + bytes.length)
        (hr : ∀ chk, encode (r chk) = sync :: sync :: bytes ++ [chk]) : t.queues r :=
      Host.Outcome.next.inj (hu.symm.trans hexec) ▸
        State.queues_of_appended hwf hseeded hlen hpar hbuf htxLen hr
    refine ⟨?_, ?_, ?_, ?_, ?_⟩
    · rintro (rfl | ⟨p, rfl | rfl⟩)
      · exact hqueues (reqdataRepliesWithTelemetry s a c hrest ha hvalid) rfl rfl rfl fun _ => rfl
      · exact hqueues ((setVoltageDrivesAndReplies s a p c hrest ha).1 hvalid) rfl rfl rfl fun _ => rfl
      · exact hqueues ((setVoltageDrivesAndReplies s a p c hrest ha).2 hvalid) rfl rfl rfl fun _ => rfl
    · rintro rfl
      exact hqueues (pingAcknowledges s a c hrest ha hvalid) rfl rfl rfl fun _ => rfl
    · rintro v rfl hrange
      have hset := setidStoresAndRereads s a v c hrest hwf ha hrange hvalid
      obtain rfl := Host.Outcome.next.inj (hset.symm.trans hexec)
      exact hqueues hset rfl rfl rfl fun _ => rfl
    · rintro v rfl
      exact hqueues (sensorRepliesAndRestarts s a v c hrest ha hvalid) rfl rfl rfl fun _ => rfl
    · rintro p rfl hl hfit
      exact hqueues (rawHandshakeAcknowledges s a c p hrest ha hl hfit hvalid) rfl rfl rfl fun _ => rfl
  · intro s t i a cmd c p
    exact exec_boot_queues

end Sys2Proof.Machine

/-! # The statements of 42_responses.md: response frames and boot answers on receipt -/

namespace Sys2Proof

/-- The one encoding of every response frame: a response's opcode, the address, and as many bytes, the checksum's among
them, as that opcode says are eaten (R122, R131, R135). -/
theorem Instr.of_response {i : Instr} {op a : Byte} (h : i.response = some (op, a)) :
    ∃ p, encode i = sync :: sync :: op :: a :: p ∧ isResponse op = true ∧ p.length = (eatResp op).toNat := by
  cases i with
  | pingR | setidR | dataR | sensorR | rawR => cases h; exact ⟨_, rfl, rfl, rfl⟩
  | reqdata | setv0 | setv1 | ping | setlimit | setid | config | sensor | raw | bS | bI | bW | bR | bY | bN => cases h

/-- Neither variant knows a byte that is no command's and no response's opcode (R130, R136, R341). -/
theorem isKnown_of_noOpcode (v : Variant) {op : Byte} (hc : isCommand op = false) (hr : isResponse op = false) :
    isKnown v op = false := by
  cases v with
  | runtime => rw [isKnown, hc, hr, Bool.or_false]
  | boot =>
    have hraw : op ≠ opRaw := by
      rintro rfl
      exact nomatch hc
    rw [isKnown, hr, Bool.or_false]
    exact beq_eq_false_iff_ne.mpr hraw

end Sys2Proof

namespace Sys2Proof.Machine

/-- Settles O20: what follows the address byte is as long as the opcode says, and is eaten before any test of address or
checksum. -/
theorem responsesAreEaten : Obligations.ResponsesAreEaten := by
  intro s i op a hs hi
  obtain ⟨p, henc, hresp, hlen⟩ := Instr.of_response hi
  have hfeed := State.feed_response s.clearStrobes op a p [] hs hresp hlen
  rw [List.append_nil, ← henc] at hfeed
  exact exec_of_finished hs (State.receive_of_feed hfeed) rfl

/-- `Awaiting` drops a byte that the variant does not know (R165). -/
theorem State.rxAwaiting_unknown {s : State} {b : Byte} (hk : isKnown s.variant b = false) :
    s.rxAwaiting b = { s with opcode := b, phase := .finished } := by
  rw [State.rxAwaiting, if_neg (Bool.eq_false_iff.mp hk)]

/-- A service step of `Awaiting` that finds a byte is that phase's rule (R160). -/
theorem State.serviceStep_awaiting {s : State} {b : Byte} {rest : List Byte} (hh : s.receiverHalted = false)
    (hp : s.phase = .awaiting) (hq : s.rxq = b :: rest) :
    s.serviceStep = .next (State.rxAwaiting { s with wdt := 0, rxPop := true, rxq := rest } b) := by
  rw [State.serviceStep_byte s b rest hh (by rw [hp]; rfl) hq fun hr => nomatch hp.symm.trans hr]
  simp only [State.consume, State.byteRule, State.receiving, hp]

/-- Settles O21: the status byte of an answer is no opcode, and `Awaiting` drops every such byte alone. -/
theorem bootAnswersAreDropped : Obligations.BootAnswersAreDropped := by
  refine ⟨fun s c hs => ⟨?_, ?_⟩, fun s b rest hh hp hk hq => ?_⟩
  · have hk : isKnown s.variant statusY = false := isKnown_of_noOpcode _ rfl rfl
    exact exec_of_finished hs (State.receive_unknown s statusY [c] hs hk) rfl
  · have hk : isKnown s.variant statusN = false := isKnown_of_noOpcode _ rfl rfl
    exact exec_of_finished hs (State.receive_unknown s statusN [c] hs hk) rfl
  · rw [State.serviceStep_awaiting hh hp hq, State.rxAwaiting_unknown (by exact hk)]

end Sys2Proof.Machine

/-! # The statements of 43_turnaround.md: the outputs of the turnaround controller -/

namespace Sys2Proof.Machine

/-! ## What leaves the line as it is, or releases it -/

/-- A halt puts the line in receive mode, whatever it was (R386). -/
theorem State.raiseFatal_lineSafe (s : State) (c : FatalCode) : (s.raiseFatal c).lineSafe = true := rfl

theorem State.call_lineSafe {s : State} (h : s.lineSafe = true) (c : Call) : (s.call c).lineSafe = true := h

/-- The end of a dispatch leaves the line as it is (R181). -/
theorem State.endDispatch_lineSafe {s : State} (h : s.lineSafe = true) : s.endDispatch.lineSafe = true := by
  unfold State.endDispatch
  split
  · exact h
  · exact h

/-- `TxAddByte` leaves the line as it is, or halts (R270). -/
theorem State.txAddByte_lineSafe {s : State} (h : s.lineSafe = true) (b : Byte) :
    (s.txAddByte b).lineSafe = true := by
  unfold State.txAddByte
  split
  · exact s.raiseFatal_lineSafe _
  · exact h

theorem State.txAddBytes_lineSafe {s : State} (h : s.lineSafe = true) (bytes : List Byte) :
    (s.txAddBytes bytes).lineSafe = true := by
  induction bytes generalizing s with
  | nil => exact h
  | cons b bs ih =>
    rw [State.txAddBytes]
    split
    · exact State.txAddByte_lineSafe h b
    · exact ih (State.txAddByte_lineSafe h b)

/-- A byte rule leaves the line as it is, or halts (R161 to R176). -/
theorem State.byteRule_lineSafe {s : State} (h : s.lineSafe = true) (b : Byte) : (s.byteRule b).lineSafe = true := by
  obtain ⟨_, _, _, _, _, _, _, _, _, _, _, _, _, _, _, _, he, hline⟩ := s.byteRule_frame b
  rw [he]
  rcases hline with ⟨-, -, rfl, rfl, rfl⟩ | ⟨-, -, rfl, rfl, rfl⟩
  · exact h
  · rfl

/-- `RAW` in the runtime variant acknowledges the handshake, or is silent (R235, R236). -/
theorem State.rawBody_lineSafe {s : State} (h : s.lineSafe = true) : s.rawBody.lineSafe = true := by
  unfold State.rawBody
  split
  · have hack : ((s.call .motorDisable).txAddBytes [opRawR, s.ownByte]).lineSafe = true :=
      State.txAddBytes_lineSafe (State.call_lineSafe h _) _
    unfold State.handshakeBody State.andThen
    split
    · exact hack
    · exact hack
  · exact h

/-- No runtime command moves the line but by a halt: each only strobes, stores and queues a response (R220, R312). -/
theorem State.dispatchRuntime_lineSafe {s : State} (h : s.lineSafe = true) {op : Byte} (hc : isCommand op = true) :
    (s.dispatchRuntime op).lineSafe = true := by
  obtain ⟨hreqdata, hsetv0, hsetv1, hping, hsetlimit, hsetid, hconfig, hsensor, hraw⟩ := s.dispatchRuntime_eq
  have hvolts : s.setVoltageBody.lineSafe = true :=
    State.txAddBytes_lineSafe (State.call_lineSafe (State.call_lineSafe (State.call_lineSafe h _) _) _) _
  simp only [isCommand, Bool.or_eq_true, beq_iff_eq] at hc
  rcases hc with (((((((rfl | rfl) | rfl) | rfl) | rfl) | rfl) | rfl) | rfl) | rfl
  · exact hreqdata ▸ State.txAddBytes_lineSafe (State.call_lineSafe (State.call_lineSafe h _) _) _
  · exact hsetv0 ▸ hvolts
  · exact hsetv1 ▸ hvolts
  · exact hping ▸ State.txAddBytes_lineSafe h _
  · exact hsetlimit ▸ State.call_lineSafe h _
  · exact hsetid ▸ State.txAddBytes_lineSafe (s := s.identityStored) h _
  · exact hconfig ▸ h
  · exact hsensor ▸ State.txAddBytes_lineSafe (State.call_lineSafe h _) _
  · exact hraw ▸ State.rawBody_lineSafe h

/-- No boot request moves the line but by a halt: each that has a next state ends in its answer (R312, R345). -/
theorem State.dispatchBoot_lineSafe {s t : State} {c : Byte} (h : s.lineSafe = true) (hd : s.dispatchBoot c = .next t) :
    t.lineSafe = true := by
  have hanswers {r : State} (hr : r.lineSafe = true) (b : Byte) : (r.txAddBytes [b]).endDispatch.lineSafe = true :=
    State.endDispatch_lineSafe (State.txAddBytes_lineSafe hr [b])
  rcases s.dispatchBoot_ends c with ⟨ok, he⟩ | he | ⟨-, -, -, he⟩ | ⟨-, he⟩ | ⟨-, -, he⟩
  · exact Host.Outcome.next.inj (he.symm.trans hd) ▸ hanswers h _
  · exact Host.Outcome.next.inj (he.symm.trans hd) ▸ hanswers (r := { s with resetPending := true }) h statusY
  · exact Host.Outcome.next.inj (he.symm.trans hd) ▸ hanswers (r := s.pageProgrammed) h statusY
  · exact nomatch he.symm.trans hd
  · exact nomatch he.symm.trans hd

/-! ## What moves the line -/

/-- `Finished` starts a flush from receive mode, where the line already shows the outputs of `TA_MUTE` (R183, R301). -/
theorem State.finishedPhase_lineSafe {s : State} (h : s.lineSafe = true) : s.finishedPhase.lineSafe = true := by
  unfold State.finishedPhase
  split
  · exact h
  next hta =>
  have hreceive : (!s.de && s.re) = true := by simpa only [State.lineSafe, not_not.mp hta] using h
  split
  · unfold State.txFlush
    split
    · exact h
    · exact hreceive
  · exact h

/-- `TA_MUTE` stops reading (R302). -/
theorem State.taMute_lineSafe (s : State) : s.taMute.lineSafe = true := rfl

/-- `TA_PRE` drives a line that is not read (R303). -/
theorem State.taPre_lineSafe {s : State} (h : s.lineSafe = true) (hta : s.taState = .pre) :
    s.taPre.lineSafe = true := by
  have hmuted : (!s.re) = true := by simpa only [State.lineSafe, hta] using h
  unfold State.taPre
  split
  · exact hmuted
  · simpa only [State.lineSafe, hta] using hmuted

/-- `TA_TX` keeps the line driven, also where it goes on to `TA_DRAIN` (R304). -/
theorem State.taTx_lineSafe {s : State} (h : s.lineSafe = true) (hta : s.taState = .tx) : s.taTx.lineSafe = true := by
  have hdriven : (s.de && !s.re) = true := by simpa only [State.lineSafe, hta] using h
  unfold State.taTx
  split
  · by_cases hlast : s.taIdx.toNat + 1 = s.txLen.toNat + 1
    · simpa only [State.lineSafe, if_pos hlast] using hdriven
    · simpa only [State.lineSafe, if_neg hlast] using hdriven
  · exact h

/-- `TA_DRAIN` keeps the line driven (R305). -/
theorem State.taDrain_lineSafe {s : State} (h : s.lineSafe = true) (hta : s.taState = .drain) :
    s.taDrain.lineSafe = true := by
  have hdriven : (s.de && !s.re) = true := by simpa only [State.lineSafe, hta] using h
  unfold State.taDrain
  split
  · exact hdriven
  · exact h

/-- `TA_POST` keeps the line driven (R306). -/
theorem State.taPost_lineSafe {s : State} (h : s.lineSafe = true) (hta : s.taState = .post) :
    s.taPost.lineSafe = true := by
  have hdriven : (s.de && !s.re) = true := by simpa only [State.lineSafe, hta] using h
  unfold State.taPost
  split
  · exact hdriven
  · exact h

/-- `TA_REL` stops driving a line that is not read (R307). -/
theorem State.taRel_lineSafe (s : State) : s.taRel.lineSafe = true := rfl

/-- `TA_TRAIL` reads a line that is not driven (R308). -/
theorem State.taTrail_lineSafe {s : State} (h : s.lineSafe = true) (hta : s.taState = .trail) :
    s.taTrail.lineSafe = true := by
  have hreleased : (!s.de) = true := by simpa only [State.lineSafe, hta] using h
  unfold State.taTrail
  split
  · exact (Bool.and_true _).trans hreleased
  · simpa only [State.lineSafe, hta] using hreleased

/-- Each turnaround step leaves the outputs of the state it enters: read falls in `TA_MUTE`, before drive rises in
`TA_PRE`, and drive falls in `TA_REL`, before read rises in `TA_TRAIL` (R302 to R309). -/
theorem State.taStep_lineSafe {s : State} (h : s.lineSafe = true) : s.taStep.lineSafe = true := by
  unfold State.taStep
  split
  · exact h
  split
  · exact h
  · exact s.taMute_lineSafe
  · next hta => exact State.taPre_lineSafe h hta
  · next hta => exact State.taTx_lineSafe h hta
  · next hta => exact State.taDrain_lineSafe h hta
  · next hta => exact State.taPost_lineSafe h hta
  · exact s.taRel_lineSafe
  · next hta => exact State.taTrail_lineSafe h hta

/-- After a reset the line is in receive mode (R430). -/
theorem State.externalReset_lineSafe (s : State) (torn : Option (List Byte)) :
    (s.externalReset torn).lineSafe = true := by
  rw [State.externalReset_eq]
  rfl

/-! ## What every step keeps -/

/-- Every rule keeps the line safe: only `Finished`, the turnaround, a halt and a reset move it. -/
theorem lineSafe_keeps : Keeps fun s => s.lineSafe = true where
  frame _ _ _ _ _ _ _ _ h := h
  byte s b h _ _ := State.byteRule_lineSafe (s := { s with wdt := 0 }) h b
  error _ h _ _ := h
  idle s h _ _ := by
    obtain ⟨_, _, _, he, -⟩ := s.idle_frame
    exact he ▸ h
  finished _ h _ _ := State.finishedPhase_lineSafe h
  illegal s _ _ _ _ := s.raiseFatal_lineSafe _
  command _ _ h _ _ hc := State.endDispatch_lineSafe (State.dispatchRuntime_lineSafe h hc)
  request _ _ _ h _ _ hd := State.dispatchBoot_lineSafe h hd
  unknown s _ _ _ _ := State.endDispatch_lineSafe (s.raiseFatal_lineSafe _)
  tick s h := by
    unfold State.tick
    split
    · split
      · exact s.externalReset_lineSafe none
      · exact State.taStep_lineSafe (s := { s with resetTicks := s.resetTicks + 1 }) h
    · exact State.taStep_lineSafe h
  reset s torn _ := s.externalReset_lineSafe torn

/-- A safe line is not read while it is driven: no turnaround state shows both outputs (R309). -/
theorem State.re_of_lineSafe {s : State} (h : s.lineSafe = true) (hde : s.de = true) : s.re = false := by
  refine Bool.eq_false_iff.mpr fun hre => ?_
  have hnone : s.lineSafe = false := by
    unfold State.lineSafe
    split <;> simp [hde, hre]
  exact nomatch hnone.symm.trans h

/-- Settles O54: the outputs of each turnaround state are kept by every rule, and in none are both lines up. -/
theorem stepKeepsLineSafe : Obligations.StepKeepsLineSafe := by
  intro s t h hstep
  have ht : t.lineSafe = true := lineSafe_keeps.step h hstep
  exact ⟨ht, State.re_of_lineSafe ht⟩

end Sys2Proof.Machine

/-! # The statements of 44_boot_variant.md: the firmware-update requests, the faults of a page write, the drives -/

namespace Sys2Proof.Machine

/-! ## The boot requests in the runtime variant -/

/-- In the runtime variant every self-describing frame is run as `RAW` (R234, R347). -/
theorem exec_self_runtime {i : Instr} {s : State} {a cmd c : Byte} {p : List Byte}
    (hi : i.selfFrame = some (a, cmd, p, c)) (hv : s.variant = .runtime) :
    exec i s = runFrame (encodeSelf a cmd p c) State.rawBody s := by
  cases i with
  | raw | bS | bI | bW | bR =>
    cases hi
    simp only [exec, execRaw, execBS, execBI, execBW, execBR, hv]
    rfl
  | reqdata | setv0 | setv1 | ping | setlimit | setid | config | sensor | pingR | setidR | dataR | sensorR | rawR | bY
  | bN => cases hi

/-- Settles O19: each request and the `RAW` with its command byte are one frame, run as `RAW`. -/
theorem bootRequestsAreRawInRuntime : Obligations.BootRequestsAreRawInRuntime := by
  intro s a c p hv
  have hsame {i j : Instr} {cmd : Byte} (hi : i.selfFrame = some (a, cmd, p, c))
      (hj : j.selfFrame = some (a, cmd, p, c)) : exec i s = exec j s :=
    (exec_self_runtime hi hv).trans (exec_self_runtime hj hv).symm
  exact ⟨hsame rfl rfl, hsame rfl rfl, hsame rfl rfl, hsame rfl rfl⟩

/-! ## Requests that are answered at once -/

/-- A valid request whose dispatch only answers changes nothing but the response, `'Y'` or `'N'` (R345, R346). -/
theorem exec_boot_answered {i : Instr} {s : State} {a cmd c : Byte} {p : List Byte} {ok : Bool}
    (hrest : s.atRest .boot) (ha : a = s.ownByte) (hl : p.length ≤ 255) (hfit : p.length + 2 ≤ s.par.rxBufCap)
    (hvalid : checksumValid i = true) (hi : i.selfFrame = some (a, cmd, p, c))
    (hdispatch : (s.requested a cmd p).dispatchBoot cmd = .next ((s.requested a cmd p).answer ok).endDispatch) :
    exec i s = .next { s.framed opRaw a (selfPayload cmd p) with
      acc := 0
      txbuf := s.txAppended [if ok then statusY else statusN]
      txLen := 3 } := by
  obtain ⟨hf, hlen, hcap⟩ := State.canReply_of_atRest hrest
  rw [exec_boot_of_valid hrest ha ((Instr.wellFormed_of_selfFrame hi).mpr hl) hi hfit hvalid, hdispatch,
    State.answer_endDispatch ok (by exact hf) (by exact hlen) (by exact hcap)]
  rfl

/-- Settles O29: the probe is answered `'Y'` whatever its payload. -/
theorem bootProbeAnswersYes : Obligations.BootProbeAnswersYes := by
  intro s a c p hrest ha hl hfit hvalid
  obtain ⟨hprobe, -⟩ := (s.requested a cmdS p).dispatchBoot_eq
  exact exec_boot_answered (ok := true) hrest ha hl hfit hvalid rfl hprobe

/-- Settles O30: the pins and the parameters that the comparison reads are those before the frame. -/
theorem bootSignatureCheckAnswers : Obligations.BootSignatureCheckAnswers := by
  intro s a c p hrest ha hl hfit hvalid
  obtain ⟨-, hsignature, -⟩ := (s.requested a cmdI p).dispatchBoot_eq
  rw [exec_boot_answered (ok := s.ports.sigIn == s.par.sigExpected) hrest ha hl hfit hvalid rfl hsignature]
  simp only [beq_iff_eq]

/-- Settles O31: the reset is made pending before the answer, which does not read it. -/
theorem bootResetIsDeferred : Obligations.BootResetIsDeferred := by
  intro s a c p hrest ha hl hfit hvalid
  obtain ⟨hf, hlen, hcap⟩ := State.canReply_of_atRest hrest
  obtain ⟨-, -, -, hreset⟩ := (s.requested a cmdR p).dispatchBoot_eq
  have hw : (Instr.bR a p c).wellFormed = true := decide_eq_true hl
  rw [exec_boot_of_valid hrest ha hw rfl hfit hvalid, hreset, State.bootRBody,
    State.answer_endDispatch true (by exact hf) (by exact hlen) (by exact hcap)]
  rfl

/-- A command byte that names no request is answered `'N'` (R354). -/
theorem State.dispatchBoot_other (s : State) {cmd : Byte} (hS : cmd ≠ cmdS) (hI : cmd ≠ cmdI) (hW : cmd ≠ cmdW)
    (hR : cmd ≠ cmdR) : s.dispatchBoot cmd = .next (s.answer false).endDispatch := by
  rw [State.dispatchBoot, if_neg hS, if_neg hI, if_neg hW, if_neg hR, State.bootOtherBody]

/-- Settles O32: a `RAW` of the boot dialect is one whose command byte names no request. -/
theorem bootOtherCommandAnswersNo : Obligations.BootOtherCommandAnswersNo := by
  intro s a cmd c p hrest ha hl hfit hdialect hvalid
  simp only [Instr.inDialect, Bool.not_eq_true', Bool.or_eq_false_iff, beq_eq_false_iff_ne] at hdialect
  obtain ⟨⟨⟨hS, hI⟩, hW⟩, hR⟩ := hdialect
  exact exec_boot_answered (ok := false) hrest ha hl hfit hvalid rfl (State.dispatchBoot_other _ hS hI hW hR)

/-! ## A page write that fails its checks -/

/-- The length of a request due for dispatch is that of its payload (R123). -/
theorem State.requestLength_requested (s : State) (a cmd : Byte) {p : List Byte} (hl : p.length ≤ 255) :
    (s.requested a cmd p).requestLength = p.length := by
  rw [State.requestLength, s.rxByte_of_filled (selfPayload cmd p) (i := 0) (by simp [selfPayload])
    (s.requested a cmd p) rfl]
  simp [selfPayload]
  omega

/-- A `W` of a wrong length fails its checks (R351). -/
theorem State.pageAccepted_of_length {s : State} (a : Byte) {p : List Byte} (hl : p.length ≤ 255)
    (hne : p.length ≠ s.par.pageSize + 2) : (s.requested a cmdW p).pageAccepted = false := by
  have hpar : (s.requested a cmdW p).par = s.par := rfl
  rw [State.pageAccepted, s.requestLength_requested a cmdW hl, hpar, decide_eq_false hne, Bool.false_and]

theorem sumNat_le (bytes : List Byte) : sumNat bytes ≤ 255 * bytes.length := by
  induction bytes with
  | nil => exact Nat.le_refl 0
  | cons b bs ih =>
    have := b.isLt
    rw [sumNat, List.length_cons]
    omega

/-- A `W` with a wrong page checksum fails its checks: the sum of a page that a frame can hold fits 16 bits (R351). -/
theorem State.pageAccepted_of_checksum {s : State} (a : Byte) {lo hi : Byte} {page : List Byte}
    (hl : (lo :: hi :: page).length ≤ 255) (hpage : page.length = s.par.pageSize)
    (hne : sumNat page ≠ lo.toNat + 256 * hi.toNat) : (s.requested a cmdW (lo :: hi :: page)).pageAccepted = false := by
  have hmod : sumNat page % 65536 = sumNat page := by
    have := sumNat_le page
    simp only [List.length_cons] at hl
    exact Nat.mod_eq_of_lt (by omega)
  rw [State.pageAccepted, State.requestPage_requested hpage, State.requestChecksum_requested, hmod,
    decide_eq_false hne, Bool.and_false]

/-- A `W` that fails its checks is answered `'N'`, wherever the cursor is (R351). -/
theorem State.bootWBody_rejected {r : State} (ha : r.pageAccepted = false) : r.bootWBody = .next (r.answer false) := by
  simp [State.bootWBody, ha]

/-- Settles O35: either check that fails ends the request before the cursor is looked at. -/
theorem bootWriteRejectsBadPage : Obligations.BootWriteRejectsBadPage := by
  intro s a c p hrest ha hl hfit hvalid hbad
  obtain ⟨-, -, hwrite, -⟩ := (s.requested a cmdW p).dispatchBoot_eq
  have hrejected : (s.requested a cmdW p).pageAccepted = false := by
    rcases hbad with hlength | ⟨lo, hi, page, rfl, hpage, hsum⟩
    · exact State.pageAccepted_of_length a hl hlength
    · exact State.pageAccepted_of_checksum a hl hpage hsum
  rw [State.bootWBody_rejected hrejected] at hwrite
  exact exec_boot_answered (ok := false) hrest ha hl hfit hvalid rfl hwrite

/-! ## A page write that passes its checks and has no successor -/

/-- At or above `APP_LIMIT` an accepted `W` has no successor (R356). -/
theorem State.bootWBody_beyondLimit {r : State} (ha : r.pageAccepted = true) (hlimit : r.par.appLimit ≤ r.cursor) :
    r.bootWBody = .fault .pageBeyondLimit := by
  simp [State.bootWBody, ha, hlimit]

/-- Below `APP_LIMIT` an accepted `W` of a page that runs past the end of the flash has no successor (R80; log 13). -/
theorem State.bootWBody_beyondFlash {r : State} (ha : r.pageAccepted = true) (hlimit : r.cursor < r.par.appLimit)
    (hflash : 2 ^ r.par.flashAddrW < r.cursor + r.par.pageSize) : r.bootWBody = .fault .flashRange := by
  simp [State.bootWBody, ha, Nat.not_le.mpr hlimit, hflash]

/-- A valid `W` of a page's length has no successor where its effect has none (R350, R356). -/
theorem exec_bW_fault {s : State} {a lo hi c : Byte} {page : List Byte} {r : Fault} (hrest : s.atRest .boot)
    (ha : a = s.ownByte) (hpage : page.length = s.par.pageSize) (hsize : s.par.pageSize ≤ 253)
    (hfit : s.par.pageSize + 4 ≤ s.par.rxBufCap) (hvalid : checksumValid (.bW a (lo :: hi :: page) c) = true)
    (hbody : (s.requested a cmdW (lo :: hi :: page)).bootWBody = .fault r) :
    exec (.bW a (lo :: hi :: page) c) s = .fault r := by
  rw [exec_bW_of_valid hrest ha (by simp; omega) (by simp; omega) hvalid, hbody, endDispatchOf]

/-- Settles O36: once the checks have passed, the cursor is compared with the limit. -/
theorem bootWriteBeyondLimitFaults : Obligations.BootWriteBeyondLimitFaults := by
  intro s a lo hi c page hrest ha hpage hsize hfit hsum hlimit hvalid
  have haccepted := State.pageAccepted_requested (a := a) hpage hsize hsum
  exact exec_bW_fault hrest ha hpage hsize hfit hvalid (State.bootWBody_beyondLimit haccepted hlimit)

/-! ## How a step ends -/

/-- The outcomes of a step from `s`: a next state, the two faults of a page write out of range, which the boot variant
alone has, and the fault of a payload byte past the end of `RXBUF` (R356, R80, R83; log 13). -/
inductive State.StepEnds (s : State) : Result → Prop
  /-- A next state. -/
  | next (t : State) : s.StepEnds (.next t)
  /-- A page write at or above `APP_LIMIT` (R356). -/
  | beyondLimit (hv : s.variant = .boot) (hlimit : s.par.appLimit ≤ s.cursor) : s.StepEnds (.fault .pageBeyondLimit)
  /-- A page write below `APP_LIMIT` that runs past the end of the flash (R80). -/
  | beyondFlash (hv : s.variant = .boot) (hlimit : s.cursor < s.par.appLimit)
      (hflash : 2 ^ s.par.flashAddrW < s.cursor + s.par.pageSize) : s.StepEnds (.fault .flashRange)
  /-- A payload byte for an index past the end of `RXBUF` (R83). -/
  | beyondBuffer (hp : s.phase = .reading) (hfull : s.par.rxBufCap ≤ s.count.toNat) : s.StepEnds (.fault .rxBufRange)

/-- How a step ends is in the parameters, the variant, the cursor, the phase and the count. -/
theorem State.StepEnds.of_eq {s t : State} {o : Result} (h : t.StepEnds o)
    (he : (t.par, t.variant, t.cursor, t.phase, t.count) = (s.par, s.variant, s.cursor, s.phase, s.count)) :
    s.StepEnds o := by
  simp only [Prod.mk.injEq] at he
  obtain ⟨hpar, hvariant, hcursor, hphase, hcount⟩ := he
  cases h with
  | next t => exact .next t
  | beyondLimit hv hlimit =>
    rw [hpar, hcursor] at hlimit
    exact .beyondLimit (hvariant.symm.trans hv) hlimit
  | beyondFlash hv hlimit hflash =>
    rw [hpar, hcursor] at hlimit hflash
    exact .beyondFlash (hvariant.symm.trans hv) hlimit hflash
  | beyondBuffer hp hfull =>
    rw [hpar, hcount] at hfull
    exact .beyondBuffer (hphase.symm.trans hp) hfull

/-- A boot dispatch with the record of a state of the boot variant: of its ends the page write's alone are faults
(R345). -/
theorem State.dispatchBoot_stepEnds {s r : State} (hv : s.variant = .boot) (hr : r.record = s.record) (c : Byte) :
    s.StepEnds (r.dispatchBoot c) := by
  have hpar : r.par = s.par := congrArg Record.par hr
  have hcursor : r.cursor = s.cursor := congrArg Record.cursor hr
  rcases r.dispatchBoot_ends c with ⟨ok, hd⟩ | hd | ⟨-, -, -, hd⟩ | ⟨hlimit, hd⟩ | ⟨hlimit, hflash, hd⟩
  all_goals rw [hd]
  iterate 3 exact .next _
  · rw [hpar, hcursor] at hlimit
    exact .beyondLimit hv hlimit
  · rw [hpar, hcursor] at hlimit hflash
    exact .beyondFlash hv hlimit hflash

theorem exec_stepEnds (i : Instr) (s : State) : s.StepEnds (exec i s) := by
  rcases exec_ends (s := s) (i := i) rfl with
    ⟨-, he⟩ | ⟨-, he⟩ | ⟨-, -, -, he⟩ | ⟨-, -, -, ⟨-, op, -, he⟩ | ⟨hv, c, he⟩⟩
  all_goals rw [he]
  iterate 4 exact .next _
  · have hreceive := (s.receive_quiet (encode i)).trans (State.clearStrobes_quiet _)
    exact State.dispatchBoot_stepEnds hv hreceive.record c

theorem State.bytePhase_stepEnds (s : State) : s.StepEnds s.bytePhase := by
  unfold State.bytePhase
  split
  · exact .next _
  · split
    · next hfull => exact .beyondBuffer hfull.1 hfull.2
    · exact .next _

theorem State.pendingPhase_stepEnds (s : State) : s.StepEnds s.pendingPhase := by
  unfold State.pendingPhase
  split
  · exact .next _
  · next hv =>
    split
    · exact State.dispatchBoot_stepEnds hv rfl _
    · exact .next _

theorem State.serviceStep_stepEnds (s : State) : s.StepEnds s.serviceStep := by
  unfold State.serviceStep
  split
  · exact .next _
  split
  iterate 6 exact s.bytePhase_stepEnds
  · exact s.pendingPhase_stepEnds
  all_goals exact .next _

theorem State.burst_stepEnds (s : State) : s.StepEnds s.burst := by
  unfold State.burst
  split
  · exact .of_eq (exec_stepEnds _ _) rfl
  · exact s.serviceStep_stepEnds

theorem State.onEvent_stepEnds (s : State) (e : Event) : s.StepEnds (s.onEvent e) := by
  cases e with
  | svc => exact s.serviceStep_stepEnds
  | burst => exact s.burst_stepEnds
  | tb | bus | reset => exact .next _

/-- Every step ends in one of these ways. -/
theorem step_ends (s : State) : s.StepEnds (step s) := .of_eq (s.beginStep.onEvent_stepEnds s.nextInput.1.event) rfl

/-- Where the receiver's registers agree, a payload byte has its place in `RXBUF`, and the page write's faults are left
(R83). -/
theorem step_fault {s : State} {r : Fault} (hinv : s.receiverInv) (h : step s = .fault r) :
    s.variant = .boot ∧ (r = .pageBeyondLimit ∧ s.par.appLimit ≤ s.cursor ∨
      r = .flashRange ∧ s.cursor < s.par.appLimit ∧ 2 ^ s.par.flashAddrW < s.cursor + s.par.pageSize) := by
  have hends := step_ends s
  rw [h] at hends
  cases hends with
  | beyondLimit hv hlimit => exact ⟨hv, .inl ⟨rfl, hlimit⟩⟩
  | beyondFlash hv hlimit hflash => exact ⟨hv, .inr ⟨rfl, hlimit, hflash⟩⟩
  | beyondBuffer hp hfull =>
    obtain ⟨hcount, hexpected⟩ := hinv.reading hp
    exact absurd (hcount.trans_le hexpected) (Nat.not_lt.mpr hfull)

/-- Settles O57: from a page boundary below `APP_LIMIT` the page ends inside the application area, so inside the
flash. -/
theorem onlyPageWriteFaults : Obligations.OnlyPageWriteFaults := by
  refine ⟨fun s r _ => step_fault, ?_, ?_, ?_⟩
  · rintro s r - hinv harea hwidth ⟨haligned, htop⟩ h
    obtain ⟨-, ⟨rfl, hlimit⟩ | ⟨-, hlimit, hflash⟩⟩ := step_fault hinv h
    · exact ⟨rfl, Nat.le_antisymm htop hlimit⟩
    · obtain ⟨-, hend⟩ := s.advancedCursor_aligned harea haligned hlimit
      exact absurd (hend.trans hwidth) (Nat.not_le.mpr hflash)
  · intro s r h
    have hends := step_ends s
    rw [h] at hends
    cases hends
  · intro s a lo hi c page hrest ha hpage hsize hfit hsum hlimit hflash hvalid
    have haccepted := State.pageAccepted_requested (a := a) hpage hsize hsum
    exact exec_bW_fault hrest ha hpage hsize hfit hvalid (State.bootWBody_beyondFlash haccepted hlimit hflash)

/-! ## The boot variant leaves the store and the drives alone -/

/-- A strobe to the motor core or the sensor (R60, R61). -/
def Call.drives : Call → Bool
  | .motorEnable | .motorDisable | .setTargetPower _ | .setTargetDirection _ | .setPowerLimit _ | .sensorRestart => true
  | .timerIrqMask _ | .flashErase _ | .flashFill _ | .flashCommit _ | .flashWait | .flashResume => false

/-- From `s` to `t` the store stands and no strobe is added that drives the motor or the sensor. -/
structure State.Undriven (s t : State) : Prop where
  /-- The store is as before. -/
  store : t.nvm = s.nvm
  /-- A strobe was there before, or drives neither motor nor sensor. -/
  strobes : ∀ c ∈ t.calls, c ∈ s.calls ∨ c.drives = false

theorem State.Undriven.of_eq {s t : State} (hnvm : t.nvm = s.nvm) (hcalls : t.calls = s.calls) : s.Undriven t :=
  ⟨hnvm, fun _ hc => .inl (hcalls ▸ hc)⟩

theorem State.Undriven.of_silent {s t : State} (hnvm : t.nvm = s.nvm) (hcalls : t.calls = []) : s.Undriven t :=
  ⟨hnvm, fun _ hc => absurd (hcalls ▸ hc) List.not_mem_nil⟩

theorem State.Undriven.refl (s : State) : s.Undriven s := .of_eq rfl rfl

theorem State.Undriven.trans {s t u : State} (h : s.Undriven t) (h' : t.Undriven u) : s.Undriven u where
  store := h'.store.trans h.store
  strobes c hc := (h'.strobes c hc).elim (h.strobes c) .inr

theorem State.endDispatch_undriven (s : State) : s.Undriven s.endDispatch := by
  unfold State.endDispatch
  split
  · exact .refl s
  · exact .of_eq rfl rfl

theorem State.answer_undriven (s : State) (ok : Bool) : s.Undriven (s.answer ok).endDispatch := by
  refine State.Undriven.trans ?_ (s.answer ok).endDispatch_undriven
  obtain ⟨_, _, _, _, _, _, _, he⟩ := s.txAddBytes_frame [if ok then statusY else statusN]
  rw [State.answer, he]
  exact .of_eq rfl rfl

/-- The strobes of a page write are the flash's and the timer's (R95). -/
theorem State.pageProgrammed_undriven (s : State) : s.Undriven s.pageProgrammed := by
  rw [State.pageProgrammed_eq]
  refine ⟨rfl, fun c hc => (List.mem_append.mp hc).imp_right fun hflash => ?_⟩
  simp only [List.mem_cons, List.not_mem_nil, or_false] at hflash
  rcases hflash with rfl | rfl | rfl | rfl | rfl | rfl | rfl <;> rfl

/-- No boot request drives or stores: each that has a next state ends in its answer (R345, R359). -/
theorem State.dispatchBoot_undriven {s t : State} {c : Byte} (h : s.dispatchBoot c = .next t) : s.Undriven t := by
  rcases s.dispatchBoot_ends c with ⟨ok, hd⟩ | hd | ⟨-, -, -, hd⟩ | ⟨-, hd⟩ | ⟨-, -, hd⟩
  · exact Host.Outcome.next.inj (hd.symm.trans h) ▸ s.answer_undriven ok
  · have hpending : s.Undriven { s with resetPending := true } := .of_eq rfl rfl
    exact Host.Outcome.next.inj (hd.symm.trans h) ▸ hpending.trans (State.answer_undriven _ true)
  · exact Host.Outcome.next.inj (hd.symm.trans h) ▸ s.pageProgrammed_undriven.trans (State.answer_undriven _ true)
  · exact nomatch hd.symm.trans h
  · exact nomatch hd.symm.trans h

/-- A frame's bytes drive and store nothing, and the strobes before them are gone (R160, R188). -/
theorem State.receive_undriven (s : State) (frame : List Byte) : s.Undriven (s.receive frame) := by
  obtain ⟨_, _, _, _, _, _, _, _, _, _, _, _, _, _, _, _, _, _, _, he, -⟩ := s.receive_frame frame
  rw [he]
  exact .of_silent rfl rfl

/-- No instruction drives or stores in the boot variant. -/
theorem exec_undriven {s t : State} {i : Instr} (hv : s.variant = .boot) (h : exec i s = .next t) : s.Undriven t := by
  have hreceive : s.Undriven (s.receive (encode i)).clearStrobes :=
    (s.receive_undriven _).trans (.of_silent rfl rfl)
  rcases exec_ends h with ⟨-, ht⟩ | ⟨-, ht⟩ | ⟨-, -, -, ht⟩ | ⟨-, -, -, ⟨hruntime, -⟩ | ⟨-, c, ht⟩⟩
  · exact Host.Outcome.next.inj ht ▸ .of_eq rfl rfl
  · exact Host.Outcome.next.inj ht ▸ s.receive_undriven _
  · exact Host.Outcome.next.inj ht ▸ hreceive.trans (.of_eq rfl rfl)
  · exact nomatch hruntime.symm.trans hv
  · exact hreceive.trans (State.dispatchBoot_undriven ht.symm)

theorem State.bytePhase_undriven {s t : State} (h : s.bytePhase = .next t) : s.Undriven t := by
  refine .of_eq (congrArg Record.nvm (State.bytePhase_record h)) ?_
  unfold State.bytePhase at h
  split at h
  · obtain ⟨_, _, _, he, -⟩ := s.idle_frame
    rw [← Host.Outcome.next.inj h, he]
  · split at h
    · exact nomatch h
    · exact Host.Outcome.next.inj h ▸ (State.consume_strobes _ _).2

theorem State.pendingPhase_undriven {s t : State} (hv : s.variant = .boot) (h : s.pendingPhase = .next t) :
    s.Undriven t := by
  by_cases hop : s.opcode = opRaw
  · exact State.dispatchBoot_undriven ((State.pendingPhase_boot hv hop).symm.trans h)
  · exact Host.Outcome.next.inj ((State.pendingPhase_unknown (.inr ⟨hv, hop⟩)).symm.trans h) ▸ .of_eq rfl rfl

theorem State.finishedPhase_undriven (s : State) : s.Undriven s.finishedPhase := by
  refine .of_eq (congrArg Record.nvm s.finishedPhase_record) ?_
  unfold State.finishedPhase State.txFlush
  repeat' split
  all_goals rfl

theorem State.serviceStep_undriven {s t : State} (hv : s.variant = .boot) (h : s.serviceStep = .next t) :
    s.Undriven t := by
  unfold State.serviceStep at h
  split at h
  · exact Host.Outcome.next.inj h ▸ .refl s
  split at h
  iterate 6 exact State.bytePhase_undriven h
  · exact State.pendingPhase_undriven hv h
  · exact Host.Outcome.next.inj h ▸ s.finishedPhase_undriven
  · exact Host.Outcome.next.inj h ▸ .of_eq rfl rfl
  · exact Host.Outcome.next.inj h ▸ .of_eq rfl rfl

theorem State.taStep_undriven (s : State) : s.Undriven s.taStep := by
  obtain ⟨_, _, _, _, _, _, _, _, he, -⟩ := s.taStep_frame
  rw [he]
  exact .of_eq rfl rfl

/-- A reset keeps the store and lowers every strobe (R434). -/
theorem State.externalReset_undriven (s : State) (torn : Option (List Byte)) : s.Undriven (s.externalReset torn) := by
  rw [State.externalReset_eq]
  exact .of_silent rfl rfl

theorem State.tick_undriven (s : State) : s.Undriven s.tick := by
  unfold State.tick
  split
  · split
    · exact s.externalReset_undriven none
    · exact State.Undriven.trans (t := { s with resetTicks := s.resetTicks + 1 }) (.of_eq rfl rfl)
        (State.taStep_undriven _)
  · exact s.taStep_undriven

theorem State.deliver_undriven (s : State) (b : Byte) : s.Undriven (s.deliver b) := by
  unfold State.deliver
  split
  · exact .of_eq rfl rfl
  · exact .refl s

theorem State.burst_undriven {s t : State} (hv : s.variant = .boot) (h : s.burst = .next t) : s.Undriven t := by
  unfold State.burst at h
  split at h
  · next rest _ => exact State.Undriven.trans (t := { s with rxq := rest }) (.of_eq rfl rfl) (exec_undriven hv h)
  · exact State.serviceStep_undriven hv h

/-- No event of the boot variant drives or stores (R359). -/
theorem State.onEvent_undriven {s t : State} {e : Event} (hv : s.variant = .boot) (h : s.onEvent e = .next t) :
    s.Undriven t := by
  cases e with
  | svc => exact State.serviceStep_undriven hv h
  | burst => exact State.burst_undriven hv h
  | tb => exact Host.Outcome.next.inj h ▸ s.tick_undriven
  | bus b => exact Host.Outcome.next.inj h ▸ s.deliver_undriven b
  | reset torn => exact Host.Outcome.next.inj h ▸ s.externalReset_undriven torn

/-- Settles O59: a step begins with every strobe low, and its event adds none that drives. -/
theorem bootVariantDrivesNoMotor : Obligations.BootVariantDrivesNoMotor := by
  intro s t hv hstep
  have hevent : s.beginStep.Undriven t := State.onEvent_undriven (s := s.beginStep) hv hstep
  refine ⟨hevent.store, fun c hc => ?_⟩
  have hidle : c.drives = false := (hevent.strobes c hc).resolve_left List.not_mem_nil
  cases c with
  | motorEnable | motorDisable | setTargetPower | setTargetDirection | setPowerLimit | sensorRestart => cases hidle
  | timerIrqMask | flashErase | flashFill | flashCommit | flashWait | flashResume => simp

end Sys2Proof.Machine
